-- ==== Sys2Proof/Word.lean ====
section
/-! DEFINITION. Word.lean: the value types of the block (00_scope.md rules R7 and R8). Every value is unsigned. -/

namespace Sys2Proof

/-- An unsigned byte, `u8` of R7: an address byte, a command byte, one transport byte. -/
abbrev Byte := BitVec 8

/-- An unsigned 24-bit value, `u24` of R7: a long address, a bound of the search window, a candidate. -/
abbrev U24 := BitVec 24

/-- The 64-bit occupancy set, `u64` of R7. -/
abbrev U64 := BitVec 64

/-- A short address 0..63 (R5 `N_SHORT`, R12). -/
abbrev ShortAddr := BitVec 6

/-- One physical bit of the bus (R8, R90): `true` is the high (idle) level 1, `false` the low level 0. -/
abbrev Sym := Bool

end Sys2Proof
end

