-- ==== Sys2Proof/Config.lean ====
section
/-! DEFINITION. Config.lean: what is fixed for a run (00_scope.md rule R5, 10_state.md rule R33), the domains of the
transport's answers (20_memory.md rule R52), the reference slave's record (R68) and the free values: constants with no body, so
that no proof can see what they are. -/

namespace Sys2Proof

/-- The command-constant record `Cmd` of 30_encoding.md rule R100: a parameter of the block. Its default values stand in
Decode.lean (`Cmd.default`). -/
structure Cmd where
  bcast        : Byte
  off          : Byte
  on           : Byte
  reset        : Byte
  queryStatus  : Byte
  terminate    : Byte
  initialise   : Byte
  initData     : Byte
  randomise    : Byte
  compare      : Byte
  withdraw     : Byte
  searchaddrh  : Byte
  searchaddrm  : Byte
  searchaddrl  : Byte
  programShort : Byte
  nodata       : Byte
  deriving DecidableEq, Repr, Inhabited

/-- The configuration record `{Cmd, SETTLE, T_RESP}` of 10_state.md rule R33, fixed for a run. `settle` and `tResp` are OPEN
parameters (R5, R293): no rule reads them. They are held in milliseconds (log entry 7). -/
structure Config where
  cmd    : Cmd
  settle : Nat
  tResp  : Nat
  deriving DecidableEq, Repr, Inhabited

/-- `LINK_CFG` of R5: the transport's fixed link parameters. It belongs to the transport, outside the block; no rule reads it. -/
structure LinkCfg where
  symbolsPerSecond : Nat
  dataBits         : Nat
  stopBits         : Nat
  parity           : Bool
  deriving DecidableEq, Repr

/-- "1200 symbols/sec nominal rate, 8 data bits, 2 stop bits, no parity" (R5, R283). -/
def linkCfg : LinkCfg := { symbolsPerSecond := 1200, dataBits := 8, stopBits := 2, parity := false }

/-- What `TxWrite` answers for a 34-byte frame (20_memory.md rules R51 and R52): `Written(n)` with n in 0..34, or `WriteFail`. A
count above 34 is outside the transport's contract (D26) and cannot be written down. -/
inductive WriteOutcome where
  | written (n : Fin 35)
  | fail
  deriving DecidableEq, Repr, Inhabited

/-- What `TxRead` answers (20_memory.md rules R52 and R53): the bytes that arrived, `Timeout`, or `ReadFail`. The bound
`len(x) ≤ m` is kept by the operation that reads (`atMost`). -/
inductive ReadOutcome where
  | bytes (x : List Byte)
  | timeout
  | fail
  deriving DecidableEq, Repr, Inhabited

/-- One device of the reference environment (20_memory.md rule R68). `rand` is the list of long addresses a test fixes for the
coming RANDOMISE frames (R71: "A test fixes the draw"); when it is empty the draw is a free value. -/
structure Slave where
  long  : U24
  short : Option ShortAddr
  init  : Bool
  wd    : Bool
  sr    : U24
  lamp  : Bool
  rand  : List U24
  deriving DecidableEq, Repr, Inhabited

/-! The free values. Each is applied to the environment's draw counter, so that two draws are never the same application. -/

/-- The answer of a `TxWrite` that nothing else decides (R52, 93 U8). -/
opaque Config.freeWrite : Nat → WriteOutcome

/-- The answer of a `TxRead` that nothing else decides (R52, 93 U8). -/
opaque Config.freeRead : Nat → ReadOutcome

/-- The state of slave number `i` after a draw (R78, 93 U1, U2, U9). -/
opaque Config.freeSlave : Nat → Nat → Slave

/-- What the slaves answer after a frame that reached them only in part (93 U9). -/
opaque Config.freeReply : Nat → Option (List Byte)

/-- The long address slave number `i` draws at RANDOMISE (R71, 93 U11). -/
opaque Config.freeLong : Nat → Nat → U24

/-- The status byte slave number `i` answers to QUERY_STATUS (R77, 93 U10). -/
opaque Config.freeStatus : Nat → Nat → Byte

end Sys2Proof
end

