-- ==== Sys2Proof/Syntax.lean ====
section
/-! DEFINITION. Syntax.lean: one constructor per row of spec/opcode_table.json: the seven host operations and the reserved
operation code of the host request word (30_encoding.md rules R106 to R108), and the fifteen bus frames (R101 to R103, R113). -/

namespace Sys2Proof

/-- An instruction. The first eight constructors are host requests; the byte buffer of CLASSIFY and DECODE is not part of the
request word but stands on the host data input (R106), which is state. The last fifteen are the forward frames the block's
sequences emit. -/
inductive Instr where
  /-- ENCODE a, c (R130). -/
  | encode (a c : Byte)
  /-- CLASSIFY of the buffer on the host data input (R132). -/
  | classify
  /-- DECODE with `n` data bits of the buffer on the host data input (R134). -/
  | decode (n : Byte)
  /-- ISSUE a, c (R150). -/
  | issue (a c : Byte)
  /-- AWAIT (R151). -/
  | await
  /-- SCAN (R190). -/
  | scan
  /-- COMMISSION (R210). -/
  | commission
  /-- The reserved operation code 7 with its sixteen other bits (R107, R108). -/
  | reservedOp7 (x : BitVec 16)
  /-- BC_RESET (R154). -/
  | bcReset
  /-- BC_OFF (R155). -/
  | bcOff
  /-- BC_ON (R156). -/
  | bcOn
  /-- INITIALISE (R157). -/
  | initialise
  /-- RANDOMISE (R158). -/
  | randomise
  /-- SEARCHADDRH v (R159). -/
  | searchaddrh (v : Byte)
  /-- SEARCHADDRM v (R160). -/
  | searchaddrm (v : Byte)
  /-- SEARCHADDRL v (R161). -/
  | searchaddrl (v : Byte)
  /-- COMPARE (R162). -/
  | compare
  /-- PROGRAM_SHORT k (R163). -/
  | programShort (k : ShortAddr)
  /-- WITHDRAW (R164). -/
  | withdraw
  /-- TERMINATE (R165). -/
  | terminate
  /-- QUERY_STATUS k (R166). -/
  | queryStatus (k : ShortAddr)
  /-- SA_ON k (R167). -/
  | saOn (k : ShortAddr)
  /-- SA_OFF k (R168). -/
  | saOff (k : ShortAddr)
  deriving DecidableEq, Repr

end Sys2Proof
end

