-- ==== Sys2Proof/WellFormed.lean ====
section
/-! DEFINITION. WellFormed.lean: which terms are requests the block accepts (30_encoding.md rules R107 and R108), and which
command records keep the frames apart. -/

namespace Sys2Proof

/-- R107, R108: DECODE takes 8 or 16 data bits. -/
def decodeWidthOk (n : Byte) : Bool := n == 8 || n == 16

/-- The instructions whose terms are well formed: DECODE has one of its two widths, and the reserved operation code is none of
the block's operations. Every other term is well formed by its type (R109: "Every (a, c) in 0..255 × 0..255 encodes"). -/
def Instr.wf : Instr → Bool
  | .encode _ _     => true
  | .classify       => true
  | .decode n       => decodeWidthOk n
  | .issue _ _      => true
  | .await          => true
  | .scan           => true
  | .commission     => true
  | .reservedOp7 _  => false
  | .bcReset        => true
  | .bcOff          => true
  | .bcOn           => true
  | .initialise     => true
  | .randomise      => true
  | .searchaddrh _  => true
  | .searchaddrm _  => true
  | .searchaddrl _  => true
  | .compare        => true
  | .programShort _ => true
  | .withdraw       => true
  | .terminate      => true
  | .queryStatus _  => true
  | .saOn _         => true
  | .saOff _        => true

/-- The short-address form `0 A5 A4 A3 A2 A1 A0 1` of an address byte (R99) and of the PROGRAM_SHORT token (R104). -/
def isShortForm (a : Byte) : Bool := a.getLsbD 0 && !a.getLsbD 7

/-- A command record under which every two of the fifteen frames are told apart: the broadcast and special address bytes are
pairwise different and none has the short-address form (R99), and the command bytes that share an address byte are different.
The default record of R100 is one (`Cmd.default`). -/
def Cmd.distinct (c : Cmd) : Bool :=
  decide ([c.bcast, c.terminate, c.initialise, c.randomise, c.compare, c.withdraw, c.searchaddrh, c.searchaddrm,
    c.searchaddrl, c.programShort].Nodup) &&
  [c.bcast, c.terminate, c.initialise, c.randomise, c.compare, c.withdraw, c.searchaddrh, c.searchaddrm,
    c.searchaddrl, c.programShort].all (fun a => !isShortForm a) &&
  decide ([c.reset, c.off, c.on].Nodup) && decide ([c.queryStatus, c.off, c.on].Nodup)

end Sys2Proof
end

