-- ==== Sys2Proof/Decode.lean ====
section
/-! DEFINITION. Decode.lean: the two encodings of 30_encoding.md, the 19-bit host request word (rules R106 to R108) and the
16-bit (address byte, command byte) pair of a bus frame (R99 to R104, R113), read and written. Decoding is total and rejects by
name. -/

namespace Sys2Proof

/-- The defaults of the command-constant record (R100), all of them from general knowledge (93 G1; log entry 4). -/
def Cmd.default : Cmd where
  bcast        := 0xFF
  off          := 0x00
  on           := 0x05
  reset        := 0x20
  queryStatus  := 0x90
  terminate    := 0xA1
  initialise   := 0xA5
  initData     := 0xFF
  randomise    := 0xA7
  compare      := 0xA9
  withdraw     := 0xAB
  searchaddrh  := 0xB1
  searchaddrm  := 0xB3
  searchaddrl  := 0xB5
  programShort := 0xB7
  nodata       := 0x00

/-- The short-address form of an address byte: `SA(k) = (k << 1) | 1` (R103). -/
def sa (k : ShortAddr) : Byte := (k.zeroExtend 8 <<< 1) ||| 1#8

/-- The token PROGRAM_SHORT carries: `Tok(k) = 1 + (k << 1)` (R104). -/
def tok (k : ShortAddr) : Byte := 1#8 + (k.zeroExtend 8 <<< 1)

/-- Bits 6..1 of a byte: the short address in the forms of R99 and R104. -/
def shortField (b : Byte) : ShortAddr := b.extractLsb' 1 6

/-- An encoded instruction: a host request word (R106), or the pair `{a, c}` of a bus frame as one 16-bit word (R93). -/
inductive Code where
  | request (w : BitVec 19)
  | frame (w : BitVec 16)
  deriving DecidableEq, Repr

/-- Why a word is no instruction. -/
inductive DecodeError where
  /-- A field of the host request word marked "must be 0" is not 0 (R107, R108). -/
  | mustBeZero
  /-- The pair (a, c) is none of the fifteen frames of R113; ISSUE can still send it (R109). -/
  | noSuchFrame
  /-- The word has a width that neither encoding has, or bits above its encoding. -/
  | badWidth
  deriving DecidableEq, Repr

/-- `op = HRW[18:16]` (R106). -/
def opField (w : BitVec 19) : BitVec 3 := w.extractLsb' 16 3

/-- `a = HRW[15:8]` (R106). -/
def aField (w : BitVec 19) : Byte := w.extractLsb' 8 8

/-- `c = HRW[7:0]` (R106). -/
def cField (w : BitVec 19) : Byte := w.extractLsb' 0 8

/-- An operation whose fields a and c must be 0 (R107). -/
def bareRequest (i : Instr) (w : BitVec 19) : Except DecodeError Instr :=
  if aField w = 0 ∧ cField w = 0 then .ok i else .error .mustBeZero

/-- The host operation codes (R107). DECODE's field c is read as it stands; its two legal values are checked by the operation. -/
def decodeRequest (w : BitVec 19) : Except DecodeError Instr :=
  if opField w = 0 then .ok (.encode (aField w) (cField w))
  else if opField w = 1 then bareRequest .classify w
  else if opField w = 2 then (if aField w = 0 then .ok (.decode (cField w)) else .error .mustBeZero)
  else if opField w = 3 then .ok (.issue (aField w) (cField w))
  else if opField w = 4 then bareRequest .await w
  else if opField w = 5 then bareRequest .scan w
  else if opField w = 6 then bareRequest .commission w
  else .ok (.reservedOp7 (w.extractLsb' 0 16))

/-- The broadcast frames (R101) by their command byte. -/
def decodeBroadcast (cmd : Cmd) (c : Byte) : Except DecodeError Instr :=
  if c = cmd.reset then .ok .bcReset
  else if c = cmd.off then .ok .bcOff
  else if c = cmd.on then .ok .bcOn
  else .error .noSuchFrame

/-- The short-address frames (R103) by their command byte. -/
def decodeShort (cmd : Cmd) (k : ShortAddr) (c : Byte) : Except DecodeError Instr :=
  if c = cmd.queryStatus then .ok (.queryStatus k)
  else if c = cmd.on then .ok (.saOn k)
  else if c = cmd.off then .ok (.saOff k)
  else .error .noSuchFrame

/-- A special-command frame whose data byte is fixed (R102). -/
def fixedData (i : Instr) (want c : Byte) : Except DecodeError Instr :=
  if c = want then .ok i else .error .noSuchFrame

/-- The frame an (address byte, command byte) pair stands for (R101 to R103, R113). -/
def decodePair (cmd : Cmd) (a c : Byte) : Except DecodeError Instr :=
  if a = cmd.bcast then decodeBroadcast cmd c
  else if a = cmd.initialise then fixedData .initialise cmd.initData c
  else if a = cmd.randomise then fixedData .randomise cmd.nodata c
  else if a = cmd.searchaddrh then .ok (.searchaddrh c)
  else if a = cmd.searchaddrm then .ok (.searchaddrm c)
  else if a = cmd.searchaddrl then .ok (.searchaddrl c)
  else if a = cmd.compare then fixedData .compare cmd.nodata c
  else if a = cmd.programShort then
    (if isShortForm c then .ok (.programShort (shortField c)) else .error .noSuchFrame)
  else if a = cmd.withdraw then fixedData .withdraw cmd.nodata c
  else if a = cmd.terminate then fixedData .terminate cmd.nodata c
  else if isShortForm a then decodeShort cmd (shortField a) c
  else .error .noSuchFrame

/-- The pair `{a, c}`: the address byte is the upper byte (R93). -/
def decodeFrame (cmd : Cmd) (w : BitVec 16) : Except DecodeError Instr :=
  decodePair cmd (w.extractLsb' 8 8) (w.extractLsb' 0 8)

/-- The instruction a code stands for under a command record, or the reason there is none. -/
def decode (cmd : Cmd) : Code → Except DecodeError Instr
  | .request w => decodeRequest w
  | .frame w   => decodeFrame cmd w

/-- A number of `nbits` bits as one of the two encodings: 16 bits are a frame pair, 19 bits (24 in whole bytes) a host request
word whose bits above 18 are 0. -/
def codeOfNat (nbits w : Nat) : Except DecodeError Code :=
  if nbits = 16 ∧ w < 2 ^ 16 then .ok (.frame (BitVec.ofNat 16 w))
  else if (nbits = 19 ∨ nbits = 24) ∧ w < 2 ^ 19 then .ok (.request (BitVec.ofNat 19 w))
  else .error .badWidth

/-- The instruction the decoder reads from a row's word as spec/opcode_table.json numbers its bits; frames are read with the
default command record, as the table does. -/
def decodeTableWord (nbits w : Nat) : Option Instr :=
  match codeOfNat nbits w with
  | .ok code =>
    match decode Cmd.default code with
    | .ok i    => some i
    | .error _ => none
  | .error _ => none

/-- The host request word of an operation (R106). -/
def requestWord (op : BitVec 3) (a c : Byte) : BitVec 19 := op ++ a ++ c

/-- The (address byte, command byte) pair of a bus frame (R101 to R103, R113); none for a host request. -/
def framePair (cmd : Cmd) : Instr → Option (Byte × Byte)
  | .encode _ _     => none
  | .classify       => none
  | .decode _       => none
  | .issue _ _      => none
  | .await          => none
  | .scan           => none
  | .commission     => none
  | .reservedOp7 _  => none
  | .bcReset        => some (cmd.bcast, cmd.reset)
  | .bcOff          => some (cmd.bcast, cmd.off)
  | .bcOn           => some (cmd.bcast, cmd.on)
  | .initialise     => some (cmd.initialise, cmd.initData)
  | .randomise      => some (cmd.randomise, cmd.nodata)
  | .searchaddrh v  => some (cmd.searchaddrh, v)
  | .searchaddrm v  => some (cmd.searchaddrm, v)
  | .searchaddrl v  => some (cmd.searchaddrl, v)
  | .compare        => some (cmd.compare, cmd.nodata)
  | .programShort k => some (cmd.programShort, tok k)
  | .withdraw       => some (cmd.withdraw, cmd.nodata)
  | .terminate      => some (cmd.terminate, cmd.nodata)
  | .queryStatus k  => some (sa k, cmd.queryStatus)
  | .saOn k         => some (sa k, cmd.on)
  | .saOff k        => some (sa k, cmd.off)

/-- The code of an instruction under a command record (R106, R107, R113). -/
def encode (cmd : Cmd) : Instr → Code
  | .encode a c     => .request (requestWord 0 a c)
  | .classify       => .request (requestWord 1 0 0)
  | .decode n       => .request (requestWord 2 0 n)
  | .issue a c      => .request (requestWord 3 a c)
  | .await          => .request (requestWord 4 0 0)
  | .scan           => .request (requestWord 5 0 0)
  | .commission     => .request (requestWord 6 0 0)
  | .reservedOp7 x  => .request (7#3 ++ x)
  | .bcReset        => .frame (cmd.bcast ++ cmd.reset)
  | .bcOff          => .frame (cmd.bcast ++ cmd.off)
  | .bcOn           => .frame (cmd.bcast ++ cmd.on)
  | .initialise     => .frame (cmd.initialise ++ cmd.initData)
  | .randomise      => .frame (cmd.randomise ++ cmd.nodata)
  | .searchaddrh v  => .frame (cmd.searchaddrh ++ v)
  | .searchaddrm v  => .frame (cmd.searchaddrm ++ v)
  | .searchaddrl v  => .frame (cmd.searchaddrl ++ v)
  | .compare        => .frame (cmd.compare ++ cmd.nodata)
  | .programShort k => .frame (cmd.programShort ++ tok k)
  | .withdraw       => .frame (cmd.withdraw ++ cmd.nodata)
  | .terminate      => .frame (cmd.terminate ++ cmd.nodata)
  | .queryStatus k  => .frame (sa k ++ cmd.queryStatus)
  | .saOn k         => .frame (sa k ++ cmd.on)
  | .saOff k        => .frame (sa k ++ cmd.off)

end Sys2Proof
end

