-- ==== Sys2Proof/Machine/State.lean ====
section
/-! DEFINITION. Machine/State.lean: the registers of 10_state.md rule R20, the configuration (R33), the host port (R106), the
transport with the bus and the slaves on it (R13, R66 to R78), and the observation (R14), as plain data; and the state after
reset (R37, R280). -/

namespace Sys2Proof.Machine

/-- `PHASE`, the block's program counter (R21). -/
inductive Phase where
  | idle
  | scBoff | scQ | scAwait | scTon | scToff | scBon
  | cmReset1 | cmReset2 | cmInit1 | cmInit2 | cmRand1 | cmRand2
  | cmPass | cmTest | cmSh | cmSm | cmSl | cmCmp | cmAwait | cmCheck
  | cmXh | cmXm | cmXl | cmProg | cmWdraw | cmLon | cmLoff
  | cmTerm | cmBon
  deriving DecidableEq, Repr

/-- The host operations (R107). -/
inductive HostOp where
  | encode | classify | decode | issue | await | scan | commission
  deriving DecidableEq, Repr

/-- The outcome of a classification (R34, R132), held in `RESP` and in `RESULT`. -/
inductive Response where
  | noResponse
  | responded
  deriving DecidableEq, Repr

/-- The error codes of `STATUS` (R251). -/
inductive ErrCode where
  | ok
  | transportOpenError
  | transportWriteError
  | transportReadTimeout
  | transportReadError
  | protocolInvariantError
  deriving DecidableEq, Repr

/-- The numeric codes of R251. -/
def ErrCode.number : ErrCode → Nat
  | .ok                     => 0
  | .transportOpenError     => 1
  | .transportWriteError    => 2
  | .transportReadTimeout   => 3
  | .transportReadError     => 4
  | .protocolInvariantError => 5

/-- The record of `ERRCTX` (R30): `none` is the spec's "no value", for a register the operation had not written. -/
structure ErrCtx where
  op       : HostOp
  phase    : Phase
  assigned : Option Nat
  low      : Option U24
  high     : Option U24
  scanix   : Option Nat
  deriving DecidableEq, Repr

/-- The values an operation returns in `RESULT` (R31, R134). -/
inductive Result where
  /-- ENCODE: the symbols and their bytes. -/
  | frame (symbols : List Sym) (bytes : List Byte)
  /-- CLASSIFY and AWAIT. -/
  | classification (r : Response)
  /-- DECODE with 8 data bits. -/
  | byte (v : Byte)
  /-- DECODE with 16 data bits: `{a, c}`. -/
  | pair (v : BitVec 16)
  /-- DECODE's verdict on a buffer that is no frame. -/
  | invalid
  /-- ISSUE. -/
  | unit
  /-- SCAN: the occupancy set. -/
  | mask (occ : U64)
  /-- COMMISSION: the number of devices programmed. -/
  | count (n : Nat)
  deriving DecidableEq, Repr

/-- One event of the observation (R14): a transport call with its outcome, a settle, and what a host operation ended with. -/
inductive Event where
  | write (b : List Byte) (o : WriteOutcome)
  | settle
  | read (m : Nat) (o : ReadOutcome)
  | returned (r : Result)
  | failed (e : ErrCode)
  deriving DecidableEq, Repr

/-- A request on the host port: the request word and what stands on the host data input (R106). -/
structure HostRequest where
  word : BitVec 19
  data : List Byte
  deriving DecidableEq, Repr

/-- What has become of a byte of the search address (R285): not come, left over from before a newer SEARCHADDRH, come before other
traffic (or into an address that other traffic had broken), or come with no other traffic since. -/
inductive ByteAge where
  | absent
  | stale
  | left
  | sent
  deriving DecidableEq, Repr

/-- How far a search address has come on the bus (R285). -/
structure SearchSeq where
  high : ByteAge
  mid  : ByteAge
  low  : ByteAge
  deriving DecidableEq, Repr

/-- The search the slaves take part in: none; one under way since a frame of it (R70 to R75) until a TERMINATE (R76); or one that
was interrupted, after which their comparison state is a draw until the next INITIALISE (R78, R289, 93 U2). -/
inductive Search where
  | closed
  | opened
  | lost
  deriving DecidableEq, Repr

/-- The reference environment's bus (R67, R68): the slaves, how far a search address has come, the search they take part in, and
the bytes the slaves have put on the bus in answer to the last forward frame, `none` when no device answers or the answer has
been read. -/
structure Bus where
  slaves : List Slave
  seq    : SearchSeq
  search : Search
  reply  : Option (List Byte)
  deriving DecidableEq, Repr

/-- The transport with everything behind it (R13 agent 3). `writes` and `reads` list what the coming calls answer, first call
first; an entry `none`, or a list that has run out, leaves the answer to the reference bus when one is attached and to a free
value when none is. `draws` numbers the free values. -/
structure Env where
  writes : List (Option WriteOutcome)
  reads  : List (Option ReadOutcome)
  bus    : Option Bus
  draws  : Nat
  deriving DecidableEq, Repr

/-- The machine. The first eleven fields are the registers of R20. -/
structure State where
  /-- `PHASE` (R21). -/
  phase    : Phase
  /-- `LOW` (R22). -/
  low      : U24
  /-- `HIGH` (R23). -/
  high     : U24
  /-- `CAND` (R24). -/
  cand     : U24
  /-- `ASSIGNED` (R25). -/
  assigned : Nat
  /-- `SCANIX` (R28). -/
  scanix   : Nat
  /-- `OCC` (R28). -/
  occ      : U64
  /-- `RESP` (R29). -/
  resp     : Response
  /-- `STATUS` (R32). -/
  status   : ErrCode
  /-- `ERRCTX` (R30); `none` is the spec's "no value". -/
  errctx   : Option ErrCtx
  /-- `RESULT` (R31); `none` is the spec's "no value". -/
  result   : Option Result
  /-- The configuration record (R33). -/
  cfg      : Config
  /-- The requests the host makes, first request first; a call blocks, so the next is presented when the block is idle (R265). -/
  requests : List HostRequest
  /-- The host data input of the request taken last (R106). -/
  hostData : List Byte
  /-- The reset input: `some k` asserts reset when `k` more steps have run (R281). -/
  resetIn  : Option Nat
  /-- The transport, the bus and the slaves. -/
  env      : Env
  /-- The observation (R14), newest event first. -/
  trace    : List Event
  deriving DecidableEq, Repr

/-- Why the machine would stop with a fault. The block has no traps (R250): every error it names ends an operation and the
machine goes on. -/
inductive Fault where
  /-- 93 U12: a read of a register that holds no value. Safe. No meaning raises it: every register of the model holds a value,
  and R37 derives that no operation of the block reads a register before it has written it. -/
  | registerHoldsNoValue
  deriving DecidableEq, Repr

/-- Why the block refuses (R108: "no step is taken, no state changes, and a model records a refusal"). -/
inductive Refusal where
  /-- exec's arm of an instruction that has no meaning yet. Safe. -/
  | notModelled (mnemonic : String)
  /-- RESERVED_OP7: the reserved operation code 7 (R107, R108). Safe. -/
  | reservedOp
  /-- The fetch of a request whose word the decoder rejects: a field marked "must be 0" is not 0 (R108). Safe. -/
  | malformed (e : DecodeError)
  /-- DECODE with a data-bit count other than 8 or 16 (R108). Safe. -/
  | decodeWidth
  /-- A host operation requested while `PHASE ≠ IDLE` (R108). Safe. -/
  | busy
  deriving DecidableEq, Repr

/-- The state after reset (R37, R280): `PHASE = IDLE`, `STATUS = OK`, `ERRCTX` and `RESULT` no value; the registers for which R37
gives no value are zero (`RESP` is NoResponse, log entry 1). The configuration is the launch's, here the defaults (log entries 4
and 7); no request is pending, nothing has been observed, and nothing is known of the transport's answers (log entry 3). -/
def State.reset : State where
  phase    := .idle
  low      := 0
  high     := 0
  cand     := 0
  assigned := 0
  scanix   := 0
  occ      := 0
  resp     := .noResponse
  status   := .ok
  errctx   := none
  result   := none
  cfg      := { cmd := Cmd.default, settle := 0, tResp := 30000 }
  requests := []
  hostData := []
  resetIn  := none
  env      := { writes := [], reads := [], bus := none, draws := 0 }
  trace    := []

end Sys2Proof.Machine
end

