-- ==== Sys2Proof/Machine/Operands.lean ====
section
/-! DEFINITION. Machine/Operands.lean: the symbols and frames of the bus (30_encoding.md rules R90 to R98), the inverse decoder
(40_codec.md rule R134), and the operand assembly of search addresses, midpoints and the occupancy set (R105, R222, R9). -/

namespace Sys2Proof.Machine

/-- `CEIL`, the search ceiling and sentinel (R5). -/
def ceil : U24 := 0xFFFFFF

/-- `N_SHORT`, the number of short addresses (R5). -/
def nShort : Nat := 64

/-- `START`, the biphase code of a logical 1 (R92). -/
def start : List Sym := [true, false]

/-- `FWD_LEN` (R5, R97). -/
def fwdLen : Nat := 34

/-- `BWD_LEN` (R5, R97). -/
def bwdLen : Nat := 18

/-- `IDLE_BYTE`, a transport byte at the idle level (R5). -/
def idleByte : Byte := 0xFF

/-- One logical bit as two symbols: `Bi(b) = ⟨b, 1 − b⟩` (R91). -/
def bi (b : Bool) : List Sym := [b, !b]

/-- The bits of a word, most significant first (R55). -/
def bitsMsb {n : Nat} (v : BitVec n) : List Bool := (List.range n).map v.getMsbD

/-- A start symbol and the biphase code of a word's bits: the common shape of R93 and R94. -/
def frameOf {n : Nat} (v : BitVec n) : List Sym := start ++ (bitsMsb v).flatMap bi

/-- The forward frame of an address byte and a command byte (R93). -/
def fwd (a c : Byte) : List Sym := frameOf (a ++ c)

/-- The backward frame of a response byte (R94). -/
def bwd (r : Byte) : List Sym := frameOf r

/-- The transport byte of a symbol (R96). -/
def packSym (s : Sym) : Byte := if s then 0xFF else 0x00

/-- One transport byte per symbol, in symbol order (R96). -/
def pack (s : List Sym) : List Byte := s.map packSym

/-- The word form `W(s)` of a symbol sequence, first symbol most significant (R95). -/
def wordForm (s : List Sym) : Nat := s.foldl (fun w b => 2 * w + b.toNat) 0

/-- The encoder of the original repository, the named configuration `Enc_dead` of R135. No operation of the block uses it. -/
def encDead (_a _c : Byte) : List Sym := start ++ List.replicate 32 false

/-- The symbols of a byte buffer, if every byte is 0x00 or 0xFF (R134). -/
def unpack : List Byte → Option (List Sym)
  | []     => some []
  | b :: t =>
    if b = 0xFF then (unpack t).map (true :: ·)
    else if b = 0x00 then (unpack t).map (false :: ·)
    else none

/-- The logical bits of a sequence of biphase pairs, if every pair is ⟨1,0⟩ or ⟨0,1⟩ (R134). -/
def unpair : List Sym → Option (List Bool)
  | []                  => some []
  | true :: false :: t  => (unpair t).map (true :: ·)
  | false :: true :: t  => (unpair t).map (false :: ·)
  | true :: true :: _   => none
  | false :: false :: _ => none
  | [_]                 => none

/-- The value of a bit sequence read most significant first: `v <- (v << 1) | bit` (R134). -/
def valueMsb (bits : List Bool) : Nat := bits.foldl (fun v b => 2 * v + b.toNat) 0

/-- The data bits after the start pattern ⟨1,0⟩ (R134). -/
def afterStart : List Sym → Option (List Bool)
  | true :: false :: t => unpair t
  | _ => none

/-- DECODE's function on `n` data bits: the value of a buffer that is exactly the packing of a frame, `none` for the verdict
`Invalid` (R134). -/
def decodeBuffer (n : Nat) (x : List Byte) : Option (BitVec n) :=
  if x.length = 2 + 2 * n then
    ((unpack x).bind afterStart).map (fun bits => BitVec.ofNat n (valueMsb bits))
  else none

/-- The wired-AND of the frames that devices answer with, symbol by symbol; of no frame, the idle level (R66). -/
def wiredAnd (frames : List (List Sym)) : List Sym :=
  frames.foldr (List.zipWith (· && ·)) (List.replicate bwdLen true)

/-- `H = v[23:16]` (R105). -/
def highByte (v : U24) : Byte := v.extractLsb' 16 8

/-- `M = v[15:8]` (R105). -/
def midByte (v : U24) : Byte := v.extractLsb' 8 8

/-- `L = v[7:0]` (R105). -/
def lowByte (v : U24) : Byte := v.extractLsb' 0 8

/-- `v[23:16] ← b`, the other bytes kept (R72). -/
def setHighByte (b : Byte) (v : U24) : U24 := b ++ v.extractLsb' 0 16

/-- `v[15:8] ← b`, the other bytes kept (R72). -/
def setMidByte (b : Byte) (v : U24) : U24 := highByte v ++ b ++ lowByte v

/-- `v[7:0] ← b`, the other bytes kept (R72). -/
def setLowByte (b : Byte) (v : U24) : U24 := v.extractLsb' 8 16 ++ b

/-- `(LOW + HIGH) >> 1`, the sum formed without loss (R222). -/
def windowMid (low high : U24) : U24 := BitVec.ofNat 24 ((low.toNat + high.toNat) / 2)

/-- A count as a short address: the low six bits of `ASSIGNED` or `SCANIX`, which are below 64 where it is used (R103, R104). -/
def shortOf (k : Nat) : ShortAddr := BitVec.ofNat 6 k

/-- `OCC[a] <- 1` (R9). -/
def setOcc (occ : U64) (a : Nat) : U64 := occ ||| (1#64 <<< a)

end Sys2Proof.Machine
end

