-- ==== Sys2Proof/Machine/Flags.lean ====
section
/-! DEFINITION. Machine/Flags.lean: the block has no status flags (10_state.md rule R34); its one Boolean outcome is the
classification of a received buffer (40_codec.md rule R132), and what an operation makes of a transport answer. -/

namespace Sys2Proof.Machine

/-- CLASSIFY's function: `NoResponse` iff every byte is idle, the empty buffer among them (R132). -/
def classify (x : List Byte) : Response := if x.all (· == idleByte) then .noResponse else .responded

/-- A `TxWrite` counts as successful only when every byte of the frame was taken (R51). -/
def writeComplete : WriteOutcome → Bool
  | .written n => n.val == fwdLen
  | .fail      => false

/-- What AWAIT makes of a read (R151): no bytes are a timeout, and the two failures are errors. -/
def awaitOutcome : ReadOutcome → Except ErrCode Response
  | .timeout        => .error .transportReadTimeout
  | .bytes []       => .error .transportReadTimeout
  | .bytes (b :: x) => .ok (classify (b :: x))
  | .fail           => .error .transportReadError

/-- `Probe(scan)` (R153): every read that brings no bytes is `NoResponse`. -/
def probeScan : ReadOutcome → Response
  | .timeout        => .noResponse
  | .bytes []       => .noResponse
  | .bytes (b :: x) => classify (b :: x)
  | .fail           => .noResponse

/-- `Probe(commission)` (R153): a timeout is `NoResponse`, another read fault an error. -/
def probeCommission : ReadOutcome → Except ErrCode Response
  | .timeout        => .ok .noResponse
  | .bytes []       => .ok .noResponse
  | .bytes (b :: x) => .ok (classify (b :: x))
  | .fail           => .error .transportReadError

end Sys2Proof.Machine
end

