-- ==== Sys2Proof/Machine/Bus.lean ====
section
/-! DEFINITION. Machine/Bus.lean: the reference environment of 20_memory.md rules R66 to R78: what each reference slave does with
a forward frame, what it answers, and what is left of the slaves after an interruption. The block's own rules do not depend on
it (R52). -/

namespace Sys2Proof.Machine

/-- A device takes the next long address the test fixed, or else the drawn one (R71). -/
def randomiseSlave (drawn : U24) (d : Slave) : Slave :=
  match d.rand with
  | []     => { d with long := drawn }
  | v :: t => { d with long := v, rand := t }

/-- What a frame does to one slave (R69 to R78); `drawn` is the long address a RANDOMISE without a fixed value draws. Host
requests are no frames and reach no slave. DESIGN CHOICE (unsafe, log entry 16): R69 says nothing of `d.lamp` at broadcast RESET,
and the model keeps the lamp. -/
def slaveEffect (drawn : U24) (i : Instr) (d : Slave) : Slave :=
  match i with
  | .encode _ _     => d
  | .classify       => d
  | .decode _       => d
  | .issue _ _      => d
  | .await          => d
  | .scan           => d
  | .commission     => d
  | .reservedOp7 _  => d
  | .bcReset        => d
  | .bcOff          => { d with lamp := false }
  | .bcOn           => { d with lamp := true }
  | .initialise     => if d.short = none then { d with init := true, wd := false } else d
  | .randomise      => if d.init then randomiseSlave drawn d else d
  | .searchaddrh v  => if d.init then { d with sr := setHighByte v d.sr } else d
  | .searchaddrm v  => if d.init then { d with sr := setMidByte v d.sr } else d
  | .searchaddrl v  => if d.init then { d with sr := setLowByte v d.sr } else d
  | .compare        => d
  | .programShort k => if d.init ∧ d.long = d.sr then { d with short := some k } else d
  | .withdraw       => if d.init ∧ d.long = d.sr then { d with wd := true } else d
  | .terminate      => { d with init := false }
  | .queryStatus _  => d
  | .saOn k         => if d.short = some k then { d with lamp := true } else d
  | .saOff k        => if d.short = some k then { d with lamp := false } else d

/-- What one slave answers to a frame: the value 0xFF to a COMPARE that selects it (R73), its status byte to a QUERY_STATUS of its
short address (R77), nothing to any other frame. -/
def slaveAnswer (status : Byte) (i : Instr) (d : Slave) : Option Byte :=
  match i with
  | .encode _ _     => none
  | .classify       => none
  | .decode _       => none
  | .issue _ _      => none
  | .await          => none
  | .scan           => none
  | .commission     => none
  | .reservedOp7 _  => none
  | .bcReset        => none
  | .bcOff          => none
  | .bcOn           => none
  | .initialise     => none
  | .randomise      => none
  | .searchaddrh _  => none
  | .searchaddrm _  => none
  | .searchaddrl _  => none
  | .compare        => if d.init ∧ d.wd = false ∧ d.long ≤ d.sr then some 0xFF else none
  | .programShort _ => none
  | .withdraw       => none
  | .terminate      => none
  | .queryStatus k  => if d.short = some k then some status else none
  | .saOn _         => none
  | .saOff _        => none

/-- The bytes the answering devices put on the bus: the packed wired-AND of their backward frames (R66, R67), `none` when no
device answers. -/
def busReply (answers : List Byte) : Option (List Byte) :=
  match answers with
  | []     => none
  | r :: t => some (pack (wiredAnd ((r :: t).map bwd)))

/-- No search address is under way. -/
def SearchSeq.idle : SearchSeq := { high := .absent, mid := .absent, low := .absent }

/-- All three bytes have been sent, and nothing else since (R285). -/
def SearchSeq.ready : SearchSeq := { high := .sent, mid := .sent, low := .sent }

/-- Have all three bytes come? -/
def SearchSeq.whole (q : SearchSeq) : Bool := q.high != .absent && q.mid != .absent && q.low != .absent

/-- Is a byte left over from before the last SEARCHADDRH? -/
def SearchSeq.outdated (q : SearchSeq) : Bool := q.mid == .stale || q.low == .stale

/-- When a frame makes the search-address registers a draw (93 U1): not at all, before the frame acts, or after it has. -/
inductive SrDraw where
  | never
  | before
  | after
  deriving DecidableEq, Repr

/-- Other traffic after a byte (R285). -/
def ByteAge.split (a : ByteAge) : ByteAge := if a = .sent then .left else a

/-- A SEARCHADDRH after other traffic outdates a byte that came before that traffic (R56). -/
def ByteAge.outdate (a : ByteAge) : ByteAge := if a = .left then .stale else a

/-- Other traffic breaks an address (R285). By itself it changes no register: R72's bytes stand until a frame that belongs to the
address comes after it. -/
def SearchSeq.split (q : SearchSeq) : SearchSeq := { high := q.high.split, mid := q.mid.split, low := q.low.split }

/-- SEARCHADDRH, the first byte of an address (R56): it outdates the bytes of a broken one. -/
def SearchSeq.sendHigh (q : SearchSeq) : SearchSeq := { high := .sent, mid := q.mid.outdate, low := q.low.outdate }

/-- The second or third byte, where `broken` says that another byte came before other traffic: the frames are then interleaved and
the register is a draw after it (R285, 93 U1). -/
def sendByte (broken : Bool) : ByteAge × SrDraw := if broken then (.left, .after) else (.sent, .never)

/-- SEARCHADDRM, come or not before. -/
def SearchSeq.sendMid (q : SearchSeq) : SearchSeq × SrDraw :=
  let m := sendByte (q.high == .left || q.low == .left)
  ({ q with mid := m.1 }, m.2)

/-- SEARCHADDRL, come or not before. -/
def SearchSeq.sendLow (q : SearchSeq) : SearchSeq × SrDraw :=
  let m := sendByte (q.high == .left || q.mid == .left)
  ({ q with low := m.1 }, m.2)

/-- A frame that a whole address ends with, the register a draw if `spoilt`; to an address partly sent it is other traffic. -/
def SearchSeq.finish (q : SearchSeq) (spoilt : Bool) : SearchSeq × SrDraw :=
  if q.whole then (.idle, if spoilt then .before else .never) else (q.split, .never)

/-- COMPARE is the end of the unit that the three bytes begin, so traffic anywhere in it has corrupted the address (R285). -/
def SearchSeq.compare (q : SearchSeq) : SearchSeq × SrDraw := q.finish (q != .ready)

/-- PROGRAM_SHORT and WITHDRAW, the use of a whole address that selects a device (R224 to R226): only traffic between the three
bytes themselves has corrupted it, and of that only an outdated byte has not made the register a draw before. -/
def SearchSeq.select (q : SearchSeq) : SearchSeq × SrDraw := q.finish q.outdated

/-- The search address after a forward frame, and what the frame makes of the search-address registers (R285, 93 U1; log entry
12). `none` is a frame of no effect on the reference slaves; a host request is no frame and no traffic. -/
def SearchSeq.after (q : SearchSeq) (i : Option Instr) : SearchSeq × SrDraw :=
  match i with
  | none                   => (q.split, .never)
  | some (.encode _ _)     => (q, .never)
  | some .classify         => (q, .never)
  | some (.decode _)       => (q, .never)
  | some (.issue _ _)      => (q, .never)
  | some .await            => (q, .never)
  | some .scan             => (q, .never)
  | some .commission       => (q, .never)
  | some (.reservedOp7 _)  => (q, .never)
  | some .bcReset          => (q.split, .never)
  | some .bcOff            => (q.split, .never)
  | some .bcOn             => (q.split, .never)
  | some .initialise       => (q.split, .never)
  | some .randomise        => (q.split, .never)
  | some (.searchaddrh _)  => (q.sendHigh, .never)
  | some (.searchaddrm _)  => q.sendMid
  | some (.searchaddrl _)  => q.sendLow
  | some .compare          => q.compare
  | some (.programShort _) => q.select
  | some .withdraw         => q.select
  | some .terminate        => (q.split, .never)
  | some (.queryStatus _)  => (q.split, .never)
  | some (.saOn _)         => (q.split, .never)
  | some (.saOff _)        => (q.split, .never)

/-- The frames a search is made of (R70 to R75), each of which shows that one is under way. -/
def searches (i : Instr) : Bool :=
  match i with
  | .encode _ _     => false
  | .classify       => false
  | .decode _       => false
  | .issue _ _      => false
  | .await          => false
  | .scan           => false
  | .commission     => false
  | .reservedOp7 _  => false
  | .bcReset        => false
  | .bcOff          => false
  | .bcOn           => false
  | .initialise     => true
  | .randomise      => true
  | .searchaddrh _  => true
  | .searchaddrm _  => true
  | .searchaddrl _  => true
  | .compare        => true
  | .programShort _ => true
  | .withdraw       => true
  | .terminate      => false
  | .queryStatus _  => false
  | .saOn _         => false
  | .saOff _        => false

/-- The search after a frame: TERMINATE closes one (R76), and a frame of a search opens one, but that of a search an interruption
has lost only INITIALISE makes an open one (R289, 93 U2; log entry 9). -/
def Search.after (q : Search) (i : Option Instr) : Search :=
  if i = some .initialise then .opened
  else if q = .lost then .lost
  else if i = some .terminate then .closed
  else if i.any searches then .opened
  else q

/-- 93 U1: the search-address register of an active device, in addressing mode and not withdrawn (R234), is a draw. -/
def corruptSr (drawn : Slave) (d : Slave) : Slave := if d.init && !d.wd then { d with sr := drawn.sr } else d

/-- The comparison state of a slave is a draw (R78, 93 U2). -/
def loseSearch (drawn : Slave) (d : Slave) : Slave := { d with sr := drawn.sr, init := drawn.init, wd := drawn.wd }

/-- 93 U1 for every slave, if the frame calls for it at this point. -/
def corruptAll (n : Nat) (now : Bool) (slaves : List Slave) : List Slave :=
  if now then slaves.mapIdx (fun j d => corruptSr (Config.freeSlave n j) d) else slaves

/-- 93 U2 for every slave, while the search is lost. -/
def loseAll (n : Nat) (now : Bool) (slaves : List Slave) : List Slave :=
  if now then slaves.mapIdx (fun j d => loseSearch (Config.freeSlave n j) d) else slaves

/-- A frame's effect on every slave (R67); a frame of no effect leaves them. -/
def actAll (n : Nat) (i : Option Instr) (slaves : List Slave) : List Slave :=
  match i with
  | none   => slaves
  | some i => slaves.mapIdx (fun j d => slaveEffect (Config.freeLong n j) i d)

/-- What the slaves put on the bus after a frame (R66, R67). -/
def answerAll (n : Nat) (i : Option Instr) (slaves : List Slave) : Option (List Byte) :=
  match i with
  | none   => none
  | some i => busReply ((slaves.mapIdx (fun j d => slaveAnswer (Config.freeStatus n j) i d)).filterMap id)

/-- A frame takes effect on every slave, and the slaves it asks answer (R67). While a search is lost the comparison state is drawn
anew at every frame, until an INITIALISE (93 U2), and needs no draw of 93 U1. `none` is a frame the reference slaves ignore (log
entry 12). `n` numbers the draws. -/
def Bus.deliver (n : Nat) (i : Option Instr) (b : Bus) : Bus :=
  let q := b.seq.after i
  let search := b.search.after i
  let draw := if search = .lost then SrDraw.never else q.2
  let heard := corruptAll n (draw == .before) b.slaves
  { slaves := loseAll n (search == .lost) (corruptAll n (draw == .after) (actAll n i heard))
    seq    := q.1
    search := search
    reply  := answerAll n i heard }

/-- The frame a pair is to the reference slaves: one of R113, and PROGRAM_SHORT with any data byte, of which they take bits 6..1
(R74); `none` for a pair they ignore. -/
def slaveFrame (cmd : Cmd) (w : BitVec 16) : Option Instr :=
  match decodeFrame cmd w with
  | .ok i    => some i
  | .error _ =>
    if w.extractLsb' 8 8 = cmd.programShort then some (.programShort (shortField (w.extractLsb' 0 8))) else none

/-- The frame a written buffer carries to the slaves: the decoded frame (R67, R134), read with the block's command record (D9). -/
def frameIn (cmd : Cmd) (x : List Byte) : Option Instr :=
  match decodeBuffer 16 x with
  | some w => slaveFrame cmd w
  | none   => none

/-- 93 U9: after a frame that was not wholly written the slaves' state is a draw, and so is what they answer; it is a transport
error too, after which their comparison state stays a draw until the next INITIALISE (R289, 93 U2). -/
def Bus.disturb (n : Nat) (b : Bus) : Bus :=
  { slaves := b.slaves.mapIdx (fun j _ => Config.freeSlave n j)
    seq    := .idle
    search := .lost
    reply  := Config.freeReply n }

/-- R78, R289: after an aborted or interrupted sequence the comparison state of every slave is a draw, and the search is lost. -/
def Bus.interrupt (n : Nat) (b : Bus) : Bus :=
  { b with slaves := loseAll n true b.slaves, seq := .idle, search := .lost }

/-- Is there a search an interruption would cut, or has cut (R289): one under way or lost, or a search address on its way? -/
def Bus.inSearch (b : Bus) : Bool := b.search != .closed || b.seq != .idle

end Sys2Proof.Machine
end

