-- ==== Sys2Proof/Machine/Ops.lean ====
section
/-! DEFINITION. Machine/Ops.lean: the transport calls (20_memory.md rules R51 to R54), the end of a host operation with a result
(R31) or with an error (60_exceptions.md rule R257), the issuing step of a sequence (41_io.md rule R152) and the reset of the
block (R280, R281). -/

namespace Sys2Proof.Machine

/-- The next transport answer that is listed, if one is. -/
def listed {α : Type} (l : List (Option α)) : Option α :=
  match l with
  | some o :: _ => some o
  | none :: _   => none
  | []          => none

/-- What the next `TxWrite` answers (R52): the listed answer, else the reference transport's `Written(34)` (R67), else a draw. -/
def Env.nextWrite (e : Env) : WriteOutcome :=
  match listed e.writes with
  | some o => o
  | none =>
    match e.bus with
    | some _ => .written 34
    | none   => Config.freeWrite e.draws

/-- `TxRead(m)` asks for at most `m` bytes (R53). -/
def atMost (m : Nat) : ReadOutcome → ReadOutcome
  | .bytes x => .bytes (x.take m)
  | .timeout => .timeout
  | .fail    => .fail

/-- What the next `TxRead(m)` answers (R52, R53): the listed answer, else what the reference bus holds (R67), else a draw. -/
def Env.nextRead (m : Nat) (e : Env) : ReadOutcome :=
  match listed e.reads with
  | some o => atMost m o
  | none =>
    match e.bus with
    | some b =>
      match b.reply with
      | some x => atMost m (.bytes x)
      | none   => .timeout
    | none => atMost m (Config.freeRead e.draws)

/-- The bus after a `TxWrite`: a whole frame reaches every slave (R67); a frame not wholly written leaves them a draw (U9). -/
def Bus.afterWrite (cmd : Cmd) (n : Nat) (b : List Byte) (o : WriteOutcome) (bus : Bus) : Bus :=
  if writeComplete o then bus.deliver n (frameIn cmd b) else bus.disturb n

/-- The environment after a `TxWrite` of the bytes `b`. -/
def Env.afterWrite (cmd : Cmd) (b : List Byte) (e : Env) : Env :=
  { writes := e.writes.tail
    reads  := e.reads
    bus    := e.bus.map (Bus.afterWrite cmd e.draws b e.nextWrite)
    draws  := e.draws + 1 }

/-- The environment after a `TxRead`: the bytes read are consumed (R60). -/
def Env.afterRead (e : Env) : Env :=
  { writes := e.writes
    reads  := e.reads.tail
    bus    := e.bus.map (fun b => { b with reply := none })
    draws  := e.draws + 1 }

/-- The environment after a sequence was cut short (R78, R289). -/
def Env.interrupt (e : Env) : Env :=
  { writes := e.writes
    reads  := e.reads
    bus    := e.bus.map (Bus.interrupt e.draws)
    draws  := e.draws + 1 }

/-- The environment after an interruption that falls while no sequence of the block runs (R289): a search that the host has built
from ISSUE calls is cut short, and one already lost is drawn anew; with none under way nothing is interrupted. -/
def Env.cutHostSearch (e : Env) : Env :=
  match e.bus with
  | some b => if b.inSearch then e.interrupt else e
  | none   => e

/-- The environment after an interruption (R78, R289): of the block's own sequence, or of a search the host has built. -/
def Env.cut (p : Phase) (e : Env) : Env := if p = .idle then e.cutHostSearch else e.interrupt

/-- `TxWrite(b)` (R51): the call with its outcome is observed. -/
def State.txWrite (b : List Byte) (s : State) : State :=
  { s with env := s.env.afterWrite s.cfg.cmd b, trace := .write b s.env.nextWrite :: s.trace }

/-- `TxRead(m)` (R53): the call with its outcome is observed. -/
def State.txRead (m : Nat) (s : State) : State :=
  { s with env := s.env.afterRead, trace := .read m (s.env.nextRead m) :: s.trace }

/-- `Settle()` (R54). -/
def State.settle (s : State) : State := { s with trace := .settle :: s.trace }

/-- `PHASE <- p` (R9). -/
def State.goto (p : Phase) (s : State) : State := { s with phase := p }

/-- The end of a host operation that returns `r`: `RESULT <- r`, `STATUS <- OK`, `PHASE <- IDLE` (R31, R198, R230). -/
def State.finish (r : Result) (s : State) : State :=
  { s with phase := .idle, status := .ok, result := some r, trace := .returned r :: s.trace }

/-- The operation a phase belongs to; none when the block is idle (R21). -/
def Phase.op : Phase → Option HostOp
  | .idle     => none
  | .scBoff   => some .scan
  | .scQ      => some .scan
  | .scAwait  => some .scan
  | .scTon    => some .scan
  | .scToff   => some .scan
  | .scBon    => some .scan
  | .cmReset1 => some .commission
  | .cmReset2 => some .commission
  | .cmInit1  => some .commission
  | .cmInit2  => some .commission
  | .cmRand1  => some .commission
  | .cmRand2  => some .commission
  | .cmPass   => some .commission
  | .cmTest   => some .commission
  | .cmSh     => some .commission
  | .cmSm     => some .commission
  | .cmSl     => some .commission
  | .cmCmp    => some .commission
  | .cmAwait  => some .commission
  | .cmCheck  => some .commission
  | .cmXh     => some .commission
  | .cmXm     => some .commission
  | .cmXl     => some .commission
  | .cmProg   => some .commission
  | .cmWdraw  => some .commission
  | .cmLon    => some .commission
  | .cmLoff   => some .commission
  | .cmTerm   => some .commission
  | .cmBon    => some .commission

/-- The phases of COMMISSION before its first `CM_PASS`, in which it has not written `HIGH` (R231). -/
def Phase.beforeFirstPass : Phase → Bool
  | .cmReset1 | .cmReset2 | .cmInit1 | .cmInit2 | .cmRand1 | .cmRand2 => true
  | _ => false

/-- The context of an error of operation `op` at the present phase: a register the operation had not written holds "no value"
(R30, R199, R231, R257). -/
def State.context (op : HostOp) (s : State) : ErrCtx :=
  { op       := op
    phase    := s.phase
    assigned := if op = .commission then some s.assigned else none
    low      := if op = .commission then some s.low else none
    high     := if op = .commission ∧ s.phase.beforeFirstPass = false then some s.high else none
    scanix   := if op = .scan then some s.scanix else none }

/-- Error entry (R257), the block's one way to take an error: `STATUS <- E`, `ERRCTX <-` the context, `PHASE <- IDLE`, `RESULT`
unchanged. A transport error cuts a sequence short, the block's own or one a host has built, which leaves the slaves' comparison
state a draw (R78, R289). AWAIT's timeout cuts none: it is the answer of an empty window (R254; log entry 9). -/
def State.raise (op : HostOp) (e : ErrCode) (s : State) : State :=
  { s with
    phase  := .idle
    status := e
    errctx := some (s.context op)
    env    := if e = .transportReadTimeout then s.env else s.env.cut s.phase
    trace  := .failed e :: s.trace }

/-- A host operation runs only when the block is idle (R108, R262). -/
def whenIdle (s : State) (t : State) : Host.Outcome State Fault Refusal :=
  if s.phase = .idle then .next t else .refused .busy

/-- ISSUE's effect (R150): the frame is written, with no settle; a write that is not complete is an error. -/
def State.issueFrame (a c : Byte) (s : State) : State :=
  let t := s.txWrite (pack (fwd a c))
  if writeComplete s.env.nextWrite then t.finish .unit else t.raise .issue .transportWriteError

/-- The registers after a frame of a sequence has been sent: the step's own updates and the next phase (R193 to R198, R214 to
R230). A phase that sends no frame keeps its place. -/
def State.advance (s : State) : State :=
  match s.phase with
  | .idle     => s
  | .scBoff   => s.goto .scQ
  | .scQ      => s.goto .scAwait
  | .scAwait  => s
  | .scTon    => s.goto .scToff
  | .scToff   => { s with scanix := s.scanix + 1, phase := .scQ }
  | .scBon    => s.finish (.mask s.occ)
  | .cmReset1 => s.goto .cmReset2
  | .cmReset2 => s.goto .cmInit1
  | .cmInit1  => s.goto .cmInit2
  | .cmInit2  => s.goto .cmRand1
  | .cmRand1  => s.goto .cmRand2
  | .cmRand2  => s.goto .cmPass
  | .cmPass   => s
  | .cmTest   => s
  | .cmSh     => s.goto .cmSm
  | .cmSm     => s.goto .cmSl
  | .cmSl     => s.goto .cmCmp
  | .cmCmp    => s.goto .cmAwait
  | .cmAwait  => s
  | .cmCheck  => s
  | .cmXh     => s.goto .cmXm
  | .cmXm     => s.goto .cmXl
  | .cmXl     => s.goto .cmProg
  | .cmProg   => s.goto .cmWdraw
  | .cmWdraw  => s.goto .cmLon
  | .cmLon    => s.goto .cmLoff
  | .cmLoff   => { s with assigned := s.assigned + 1, phase := .cmPass }
  | .cmTerm   => s.goto .cmBon
  | .cmBon    => s.finish (.count s.assigned)

/-- An issuing step of a sequence of operation `op`: `Send(a, c)` (R152), that is the write, its error, or one settle, and then
the step's own updates. -/
def State.sendFrame (op : HostOp) (a c : Byte) (s : State) : State :=
  let t := s.txWrite (pack (fwd a c))
  if writeComplete s.env.nextWrite then t.settle.advance else t.raise op .transportWriteError

/-- A bus frame (R154 to R168): inside a sequence it is the issuing step of the present phase; from an idle block it is the
`ISSUE <frame>` of R112 and R113. -/
def State.busFrame (a c : Byte) (s : State) : State :=
  match s.phase.op with
  | some op => s.sendFrame op a c
  | none    => s.issueFrame a c

/-- Reset of the block (R280, R281): an operation under way ends with no result and no error record, frames already sent stay
sent, and the slaves of an interrupted sequence, or of a search the host was building, are left a draw (R289). The configuration,
the host's requests and the observation are not the block's registers and stay. -/
def State.blockReset (s : State) : State :=
  { State.reset with
    cfg      := s.cfg
    requests := s.requests
    env      := s.env.cut s.phase
    trace    := s.trace }

/-- An idle block without a request waits (R61, R280). A host that has no further call has stopped; that cuts a search it was
building (R289; log entry 9). -/
def State.wait (s : State) : State := { s with env := s.env.cutHostSearch }

end Sys2Proof.Machine
end

