-- ==== Sys2Proof/Machine/Codec.lean ====
section
/-! DEFINITION. Machine/Codec.lean: the frame codec's host operations ENCODE, CLASSIFY and DECODE (40_codec.md rules R130, R132
and R134). None of them touches the transport. -/

namespace Sys2Proof.Machine

/-- ENCODE (R130): the frame of (a, c) and its bytes. It never fails. -/
def execEncode (a c : Byte) (s : State) : Host.Outcome State Fault Refusal :=
  whenIdle s (s.finish (.frame (fwd a c) (pack (fwd a c))))

/-- CLASSIFY (R132) of the buffer on the host data input. -/
def execClassify (s : State) : Host.Outcome State Fault Refusal :=
  whenIdle s (s.finish (.classification (classify s.hostData)))

/-- What DECODE returns for a buffer (R134): a u8 for 8 data bits, the pair `{a, c}` for 16, or the verdict `Invalid`. -/
def decodeResult (n : Byte) (x : List Byte) : Result :=
  if n = 8 then
    match decodeBuffer 8 x with
    | some v => .byte v
    | none   => .invalid
  else
    match decodeBuffer 16 x with
    | some v => .pair v
    | none   => .invalid

/-- DECODE (R134) of the buffer on the host data input; a data-bit count other than 8 or 16 is refused (R108). -/
def execDecode (n : Byte) (s : State) : Host.Outcome State Fault Refusal :=
  if decodeWidthOk n then whenIdle s (s.finish (decodeResult n s.hostData)) else .refused .decodeWidth

end Sys2Proof.Machine
end

