-- ==== Sys2Proof/Machine/Commissioner.lean ====
section
/-! DEFINITION. Machine/Commissioner.lean: COMMISSION's start and those of its steps that send no frame (43_commissioner.md rules
R213, R217, R218, R221 and R223). Its issuing steps are the frames of Machine/Frames.lean. -/

namespace Sys2Proof.Machine

/-- COMMISSION's start (R213): `LOW <- 0`, `ASSIGNED <- 0`, `PHASE <- CM_RESET1`; no transport call. -/
def execCommission (s : State) : Host.Outcome State Fault Refusal :=
  whenIdle s { s with low := 0, assigned := 0, phase := .cmReset1 }

/-- `CM_PASS` (R217): the end of the run after 64 devices, else a new pass from the ceiling; `LOW` is carried forward. -/
def State.passStart (s : State) : State :=
  if s.assigned = nShort then s.goto .cmTerm else { s with high := ceil, phase := .cmTest }

/-- `CM_TEST` (R218): the window invariant is checked before anything else (R259), then the midpoint is taken while the window
is wider than 1. -/
def State.searchTest (s : State) : State :=
  if s.high ≤ s.low then s.raise .commission .protocolInvariantError
  else if 1 < s.high.toNat - s.low.toNat then { s with cand := windowMid s.low s.high, phase := .cmSh }
  else s.goto .cmCheck

/-- The window's update after a compare has answered `r` (R221, 90 C2): a response lowers `HIGH` to the candidate, silence raises
`LOW` to it. -/
def State.compareAnswer (r : Response) (s : State) : State :=
  match r with
  | .responded  => { s with resp := .responded, high := s.cand, phase := .cmTest }
  | .noResponse => { s with resp := .noResponse, low := s.cand, phase := .cmTest }

/-- `CM_AWAIT` (R221): `RESP <- Probe(commission)` and the window's update, or the read error (R231). -/
def State.compareAwait (s : State) : State :=
  match probeCommission (s.env.nextRead bwdLen) with
  | .ok r    => (s.txRead bwdLen).compareAnswer r
  | .error e => (s.txRead bwdLen).raise .commission e

/-- `CM_CHECK` (R223): at the sentinel the pass found nobody; else the device at `LOW + 1` is selected. -/
def State.passCheck (s : State) : State :=
  if s.high = ceil then s.goto .cmTerm else { s with cand := s.low + 1, phase := .cmXh }

end Sys2Proof.Machine
end

