-- ==== Sys2Proof/Machine/Frames.lean ====
section
/-! DEFINITION. Machine/Frames.lean: the fifteen bus frames (41_io.md rules R154 to R168), each the pair (a, c) of 30_encoding.md
rule R113 sent as an issuing step. -/

namespace Sys2Proof.Machine

/-- BC_RESET: `Send(Cmd.BCAST, Cmd.RESET)` (R154). -/
def execBcReset (s : State) : Host.Outcome State Fault Refusal := .next (s.busFrame s.cfg.cmd.bcast s.cfg.cmd.reset)

/-- BC_OFF: `Send(Cmd.BCAST, Cmd.OFF)` (R155). -/
def execBcOff (s : State) : Host.Outcome State Fault Refusal := .next (s.busFrame s.cfg.cmd.bcast s.cfg.cmd.off)

/-- BC_ON: `Send(Cmd.BCAST, Cmd.ON)` (R156). -/
def execBcOn (s : State) : Host.Outcome State Fault Refusal := .next (s.busFrame s.cfg.cmd.bcast s.cfg.cmd.on)

/-- INITIALISE: `Send(Cmd.INITIALISE, Cmd.INIT_DATA)` (R157). -/
def execInitialise (s : State) : Host.Outcome State Fault Refusal :=
  .next (s.busFrame s.cfg.cmd.initialise s.cfg.cmd.initData)

/-- RANDOMISE: `Send(Cmd.RANDOMISE, Cmd.NODATA)` (R158). -/
def execRandomise (s : State) : Host.Outcome State Fault Refusal :=
  .next (s.busFrame s.cfg.cmd.randomise s.cfg.cmd.nodata)

/-- SEARCHADDRH v: `Send(Cmd.SEARCHADDRH, v)` (R159). -/
def execSearchaddrh (v : Byte) (s : State) : Host.Outcome State Fault Refusal := .next (s.busFrame s.cfg.cmd.searchaddrh v)

/-- SEARCHADDRM v: `Send(Cmd.SEARCHADDRM, v)` (R160). -/
def execSearchaddrm (v : Byte) (s : State) : Host.Outcome State Fault Refusal := .next (s.busFrame s.cfg.cmd.searchaddrm v)

/-- SEARCHADDRL v: `Send(Cmd.SEARCHADDRL, v)` (R161). -/
def execSearchaddrl (v : Byte) (s : State) : Host.Outcome State Fault Refusal := .next (s.busFrame s.cfg.cmd.searchaddrl v)

/-- COMPARE: `Send(Cmd.COMPARE, Cmd.NODATA)` (R162). -/
def execCompare (s : State) : Host.Outcome State Fault Refusal := .next (s.busFrame s.cfg.cmd.compare s.cfg.cmd.nodata)

/-- PROGRAM_SHORT k: `Send(Cmd.PROGRAM_SHORT, Tok(k))` (R163). -/
def execProgramShort (k : ShortAddr) (s : State) : Host.Outcome State Fault Refusal :=
  .next (s.busFrame s.cfg.cmd.programShort (tok k))

/-- WITHDRAW: `Send(Cmd.WITHDRAW, Cmd.NODATA)` (R164). -/
def execWithdraw (s : State) : Host.Outcome State Fault Refusal := .next (s.busFrame s.cfg.cmd.withdraw s.cfg.cmd.nodata)

/-- TERMINATE: `Send(Cmd.TERMINATE, Cmd.NODATA)` (R165). -/
def execTerminate (s : State) : Host.Outcome State Fault Refusal :=
  .next (s.busFrame s.cfg.cmd.terminate s.cfg.cmd.nodata)

/-- QUERY_STATUS k: `Send(SA(k), Cmd.QUERY_STATUS)` (R166). -/
def execQueryStatus (k : ShortAddr) (s : State) : Host.Outcome State Fault Refusal :=
  .next (s.busFrame (sa k) s.cfg.cmd.queryStatus)

/-- SA_ON k: `Send(SA(k), Cmd.ON)` (R167). -/
def execSaOn (k : ShortAddr) (s : State) : Host.Outcome State Fault Refusal := .next (s.busFrame (sa k) s.cfg.cmd.on)

/-- SA_OFF k: `Send(SA(k), Cmd.OFF)` (R168). -/
def execSaOff (k : ShortAddr) (s : State) : Host.Outcome State Fault Refusal := .next (s.busFrame (sa k) s.cfg.cmd.off)

end Sys2Proof.Machine
end

