-- ==== Sys2Proof/Machine/Io.lean ====
section
/-! DEFINITION. Machine/Io.lean: the host operations that make one transport call, ISSUE and AWAIT (41_io.md rules R150 and
R151), and the reserved operation code (30_encoding.md rule R108). -/

namespace Sys2Proof.Machine

/-- ISSUE (R150): one forward frame on the bus, any (a, c) (R109). -/
def execIssue (a c : Byte) (s : State) : Host.Outcome State Fault Refusal := whenIdle s (s.issueFrame a c)

/-- AWAIT's effect (R151): one read of at most 18 bytes, classified as received, or an error. -/
def State.awaitFrame (s : State) : State :=
  match awaitOutcome (s.env.nextRead bwdLen) with
  | .ok r    => (s.txRead bwdLen).finish (.classification r)
  | .error e => (s.txRead bwdLen).raise .await e

/-- AWAIT (R151). -/
def execAwait (s : State) : Host.Outcome State Fault Refusal := whenIdle s s.awaitFrame

/-- RESERVED_OP7: the reserved operation code is refused (R107, R108). -/
def execReservedOp7 (_x : BitVec 16) (_s : State) : Host.Outcome State Fault Refusal := .refused .reservedOp

end Sys2Proof.Machine
end

