-- ==== Sys2Proof/Machine/Scanner.lean ====
section
/-! DEFINITION. Machine/Scanner.lean: SCAN's start and those of its steps that send no frame (42_scanner.md rules R190 to R195).
Its issuing steps are the frames of Machine/Frames.lean. -/

namespace Sys2Proof.Machine

/-- SCAN's start (R192): `SCANIX <- 0`, `OCC <- 0`, `PHASE <- SC_BOFF`; no transport call. -/
def execScan (s : State) : Host.Outcome State Fault Refusal :=
  whenIdle s { s with scanix := 0, occ := 0, phase := .scBoff }

/-- `SC_Q` once every address has been probed (R194): `PHASE <- SC_BON`, no transport call. -/
def State.scanDone (s : State) : State := s.goto .scBon

/-- The registers after a probe of the scanner has answered `r` (R195). -/
def State.scanAnswer (r : Response) (s : State) : State :=
  match r with
  | .responded  => { s with resp := .responded, occ := setOcc s.occ s.scanix, phase := .scTon }
  | .noResponse => { s with resp := .noResponse, scanix := s.scanix + 1, phase := .scQ }

/-- `SC_AWAIT` (R195): `RESP <- Probe(scan)` and the scanner's update. -/
def State.scanAwait (s : State) : State :=
  (s.txRead bwdLen).scanAnswer (probeScan (s.env.nextRead bwdLen))

end Sys2Proof.Machine
end

