-- ==== Sys2Proof/Machine/Dispatch.lean ====
section
/-! DEFINITION. Machine/Dispatch.lean: the meaning of each instruction, one arm per constructor. -/

namespace Sys2Proof.Machine

def exec (i : Instr) (s : State) : Host.Outcome State Fault Refusal :=
  match i with
  | .encode a c => Sys2Proof.Machine.execEncode a c s
  | .classify => Sys2Proof.Machine.execClassify s
  | .decode n => Sys2Proof.Machine.execDecode n s
  | .issue a c => Sys2Proof.Machine.execIssue a c s
  | .await => Sys2Proof.Machine.execAwait s
  | .scan => Sys2Proof.Machine.execScan s
  | .commission => Sys2Proof.Machine.execCommission s
  | .reservedOp7 x => Sys2Proof.Machine.execReservedOp7 x s
  | .bcReset => Sys2Proof.Machine.execBcReset s
  | .bcOff => Sys2Proof.Machine.execBcOff s
  | .bcOn => Sys2Proof.Machine.execBcOn s
  | .initialise => Sys2Proof.Machine.execInitialise s
  | .randomise => Sys2Proof.Machine.execRandomise s
  | .searchaddrh v => Sys2Proof.Machine.execSearchaddrh v s
  | .searchaddrm v => Sys2Proof.Machine.execSearchaddrm v s
  | .searchaddrl v => Sys2Proof.Machine.execSearchaddrl v s
  | .compare => Sys2Proof.Machine.execCompare s
  | .programShort k => Sys2Proof.Machine.execProgramShort k s
  | .withdraw => Sys2Proof.Machine.execWithdraw s
  | .terminate => Sys2Proof.Machine.execTerminate s
  | .queryStatus k => Sys2Proof.Machine.execQueryStatus k s
  | .saOn k => Sys2Proof.Machine.execSaOn k s
  | .saOff k => Sys2Proof.Machine.execSaOff k s

end Sys2Proof.Machine
end

