-- ==== Sys2Proof/Machine/Fetch.lean ====
section
/-! DEFINITION. Machine/Fetch.lean: what the block does next. An idle block takes the next host request (30_encoding.md rule R106);
inside a sequence `PHASE` selects the step (10_state.md rule R21), which is a bus frame or a step of its own; the reset input
comes before both (70_reset_and_hazards.md rule R281). -/

namespace Sys2Proof.Machine

/-- What a step is: an instruction that runs on a state, a step with no instruction of its own, or a refusal. -/
inductive Fetched where
  | run (i : Instr) (s : State)
  | internal (s : State)
  | refuse (r : Refusal)
  deriving DecidableEq, Repr

/-- An idle block takes the request that is next and latches the host data input; with no request it waits (R61, R280). A word
that the decoder rejects is refused (R108). -/
def fetchRequest (s : State) : Fetched :=
  match s.requests with
  | []     => .internal s.wait
  | r :: t =>
    match decodeRequest r.word with
    | .ok i    => .run i { s with requests := t, hostData := r.data }
    | .error e => .refuse (.malformed e)

/-- The step that `PHASE` selects (42_scanner.md rules R193 to R198, 43_commissioner.md rules R214 to R230). -/
def fetchPhase (s : State) : Fetched :=
  match s.phase with
  | .idle     => fetchRequest s
  | .scBoff   => .run .bcOff s
  | .scQ      => if s.scanix = nShort then .internal s.scanDone else .run (.queryStatus (shortOf s.scanix)) s
  | .scAwait  => .internal s.scanAwait
  | .scTon    => .run (.saOn (shortOf s.scanix)) s
  | .scToff   => .run (.saOff (shortOf s.scanix)) s
  | .scBon    => .run .bcOn s
  | .cmReset1 => .run .bcReset s
  | .cmReset2 => .run .bcReset s
  | .cmInit1  => .run .initialise s
  | .cmInit2  => .run .initialise s
  | .cmRand1  => .run .randomise s
  | .cmRand2  => .run .randomise s
  | .cmPass   => .internal s.passStart
  | .cmTest   => .internal s.searchTest
  | .cmSh     => .run (.searchaddrh (highByte s.cand)) s
  | .cmSm     => .run (.searchaddrm (midByte s.cand)) s
  | .cmSl     => .run (.searchaddrl (lowByte s.cand)) s
  | .cmCmp    => .run .compare s
  | .cmAwait  => .internal s.compareAwait
  | .cmCheck  => .internal s.passCheck
  | .cmXh     => .run (.searchaddrh (highByte s.cand)) s
  | .cmXm     => .run (.searchaddrm (midByte s.cand)) s
  | .cmXl     => .run (.searchaddrl (lowByte s.cand)) s
  | .cmProg   => .run (.programShort (shortOf s.assigned)) s
  | .cmWdraw  => .run .withdraw s
  | .cmLon    => .run (.saOn (shortOf s.assigned)) s
  | .cmLoff   => .run (.saOff (shortOf s.assigned)) s
  | .cmTerm   => .run .terminate s
  | .cmBon    => .run .bcOn s

/-- What the block does next: reset when the reset input is asserted, else the step at hand. -/
def fetch (s : State) : Fetched :=
  match s.resetIn with
  | some 0       => .internal s.blockReset
  | some (k + 1) => fetchPhase { s with resetIn := some k }
  | none         => fetchPhase s

/-- The state whose next step runs a bus frame: its phase, and the register its operand comes from (R154 to R168). A host request
selects no phase. -/
def selectFrame (i : Instr) (s : State) : State :=
  match i with
  | .encode _ _     => s
  | .classify       => s
  | .decode _       => s
  | .issue _ _      => s
  | .await          => s
  | .scan           => s
  | .commission     => s
  | .reservedOp7 _  => s
  | .bcReset        => s.goto .cmReset1
  | .bcOff          => s.goto .scBoff
  | .bcOn           => s.goto .scBon
  | .initialise     => s.goto .cmInit1
  | .randomise      => s.goto .cmRand1
  | .searchaddrh v  => { s with phase := .cmSh, cand := setHighByte v s.cand }
  | .searchaddrm v  => { s with phase := .cmSm, cand := setMidByte v s.cand }
  | .searchaddrl v  => { s with phase := .cmSl, cand := setLowByte v s.cand }
  | .compare        => s.goto .cmCmp
  | .programShort k => { s with phase := .cmProg, assigned := k.toNat }
  | .withdraw       => s.goto .cmWdraw
  | .terminate      => s.goto .cmTerm
  | .queryStatus k  => { s with phase := .scQ, scanix := k.toNat }
  | .saOn k         => { s with phase := .scTon, scanix := k.toNat }
  | .saOff k        => { s with phase := .scToff, scanix := k.toNat }

/-- The state whose next step runs the word: a host request word is put at the head of the host port of an idle block; a frame
pair selects the sequence step that sends it. A word that is neither changes nothing. -/
def placeWord (nbits w : Nat) (s : State) : State :=
  match codeOfNat nbits w with
  | .error _ => s
  | .ok (.request v) =>
    { s with phase := .idle, resetIn := none, requests := { word := v, data := s.hostData } :: s.requests }
  | .ok (.frame v) =>
    match decodeFrame Cmd.default v with
    | .ok i    => selectFrame i { s with resetIn := none }
    | .error _ => s

end Sys2Proof.Machine
end

