-- ==== Sys2Proof/Machine/Step.lean ====
section
/-! DEFINITION. Machine/Step.lean: one step of the block (00_scope.md rule R13), and how a table word is placed for the next
step. -/

namespace Sys2Proof.Machine

/-- One step: what `fetch` selects is run. -/
def step (s : State) : Host.Outcome State Fault Refusal :=
  match fetch s with
  | .run i t    => exec i t
  | .internal t => .next t
  | .refuse r   => .refused r

/-- The state in which the word stands where the next step takes its instruction from (log entry 2). -/
def State.withFetchWord (s : State) (nbits w : Nat) : State := placeWord nbits w s

end Sys2Proof.Machine
end

