-- ==== Sys2Proof/Safety.lean ====
section
/-! DEFINITION. Safety.lean: the invariant every step keeps, the bounds on what is left of an operation, the counts of the
observation, and the reference environment's premises, in the terms the statements use. -/

namespace Sys2Proof.Machine

/-- What holds of the registers at each phase (10_state.md rules R24 to R28; 43_commissioner.md rules R222, R223 and R241). In an
idle block the registers are dead (R27). -/
def State.Inv (s : State) : Prop :=
  match s.phase with
  | .idle => True
  | .scBoff => s.scanix = 0 ∧ s.occ = 0
  | .scQ => s.scanix ≤ 64 ∧ s.occ.toNat < 2 ^ s.scanix
  | .scAwait => s.scanix < 64 ∧ s.occ.toNat < 2 ^ s.scanix
  | .scTon | .scToff => s.scanix < 64 ∧ s.occ.toNat < 2 ^ (s.scanix + 1)
  | .scBon => s.scanix = 64
  | .cmReset1 | .cmReset2 | .cmInit1 | .cmInit2 | .cmRand1 | .cmRand2 => s.low = 0 ∧ s.assigned = 0
  | .cmPass => s.assigned ≤ 64 ∧ s.low.toNat + 2 ≤ 0xFFFFFF
  | .cmTest => s.assigned < 64 ∧ s.low.toNat < s.high.toNat
  | .cmSh | .cmSm | .cmSl | .cmCmp | .cmAwait =>
    s.assigned < 64 ∧ s.low.toNat + 1 < s.high.toNat ∧ s.cand = windowMid s.low s.high
  | .cmCheck => s.assigned < 64 ∧ s.high.toNat = s.low.toNat + 1
  | .cmXh | .cmXm | .cmXl | .cmProg | .cmWdraw | .cmLon | .cmLoff =>
    s.assigned < 64 ∧ s.cand = s.high ∧ s.high.toNat = s.low.toNat + 1 ∧ s.high.toNat < 0xFFFFFF
  | .cmTerm | .cmBon => s.assigned ≤ 64

/-- The width `HIGH − LOW` of the search window. -/
def State.width (s : State) : Nat := s.high.toNat - s.low.toNat

/-- The compares a pass still makes at most: ⌈log2 of the window's width⌉ (R232). -/
def State.comparesLeft (s : State) : Nat := Nat.clog 2 s.width

/-- A bound on the steps of the operation under way that are still to run. -/
def State.stepsLeft (s : State) : Nat :=
  match s.phase with
  | .idle     => 0
  | .scBoff   => 259
  | .scQ      => 4 * (64 - s.scanix) + 2
  | .scAwait  => 4 * (64 - s.scanix) + 1
  | .scTon    => 4 * (64 - s.scanix)
  | .scToff   => 4 * (64 - s.scanix) - 1
  | .scBon    => 1
  | .cmReset1 => 9865
  | .cmReset2 => 9864
  | .cmInit1  => 9863
  | .cmInit2  => 9862
  | .cmRand1  => 9861
  | .cmRand2  => 9860
  | .cmPass   => 154 * (64 - s.assigned) + 3
  | .cmTest   => 6 * s.comparesLeft + 154 * (63 - s.assigned) + 12
  | .cmSh     => 6 * s.comparesLeft + 154 * (63 - s.assigned) + 11
  | .cmSm     => 6 * s.comparesLeft + 154 * (63 - s.assigned) + 10
  | .cmSl     => 6 * s.comparesLeft + 154 * (63 - s.assigned) + 9
  | .cmCmp    => 6 * s.comparesLeft + 154 * (63 - s.assigned) + 8
  | .cmAwait  => 6 * s.comparesLeft + 154 * (63 - s.assigned) + 7
  | .cmCheck  => 154 * (63 - s.assigned) + 11
  | .cmXh     => 154 * (63 - s.assigned) + 10
  | .cmXm     => 154 * (63 - s.assigned) + 9
  | .cmXl     => 154 * (63 - s.assigned) + 8
  | .cmProg   => 154 * (63 - s.assigned) + 7
  | .cmWdraw  => 154 * (63 - s.assigned) + 6
  | .cmLon    => 154 * (63 - s.assigned) + 5
  | .cmLoff   => 154 * (63 - s.assigned) + 4
  | .cmTerm   => 2
  | .cmBon    => 1

/-- A bound on the frames COMMISSION still sends (R235: `6 + 64·(4·24 + 7) + 2 = 6600` from its start). -/
def State.framesLeft (s : State) : Nat :=
  match s.phase with
  | .idle | .scBoff | .scQ | .scAwait | .scTon | .scToff | .scBon => 0
  | .cmReset1 => 6600
  | .cmReset2 => 6599
  | .cmInit1  => 6598
  | .cmInit2  => 6597
  | .cmRand1  => 6596
  | .cmRand2  => 6595
  | .cmPass   => 103 * (64 - s.assigned) + 2
  | .cmTest   => 4 * s.comparesLeft + 103 * (63 - s.assigned) + 9
  | .cmSh     => 4 * s.comparesLeft + 103 * (63 - s.assigned) + 9
  | .cmSm     => 4 * s.comparesLeft + 103 * (63 - s.assigned) + 8
  | .cmSl     => 4 * s.comparesLeft + 103 * (63 - s.assigned) + 7
  | .cmCmp    => 4 * s.comparesLeft + 103 * (63 - s.assigned) + 6
  | .cmAwait  => 4 * s.comparesLeft + 103 * (63 - s.assigned) + 5
  | .cmCheck  => 103 * (63 - s.assigned) + 9
  | .cmXh     => 103 * (63 - s.assigned) + 9
  | .cmXm     => 103 * (63 - s.assigned) + 8
  | .cmXl     => 103 * (63 - s.assigned) + 7
  | .cmProg   => 103 * (63 - s.assigned) + 6
  | .cmWdraw  => 103 * (63 - s.assigned) + 5
  | .cmLon    => 103 * (63 - s.assigned) + 4
  | .cmLoff   => 103 * (63 - s.assigned) + 3
  | .cmTerm   => 2
  | .cmBon    => 1

/-- Is the event a `TxWrite` call? -/
def Event.isWrite : Event → Bool
  | .write _ _  => true
  | .settle     => false
  | .read _ _   => false
  | .returned _ => false
  | .failed _   => false

/-- Is the event a `TxRead` call? -/
def Event.isRead : Event → Bool
  | .write _ _  => false
  | .settle     => false
  | .read _ _   => true
  | .returned _ => false
  | .failed _   => false

/-- Is the event a `Settle()`? -/
def Event.isSettle : Event → Bool
  | .write _ _  => false
  | .settle     => true
  | .read _ _   => false
  | .returned _ => false
  | .failed _   => false

/-- The number of `TxWrite` calls observed. -/
def State.writeCount (s : State) : Nat := s.trace.countP Event.isWrite

/-- The number of `TxRead` calls observed. -/
def State.readCount (s : State) : Nat := s.trace.countP Event.isRead

/-- The number of settles observed. -/
def State.settleCount (s : State) : Nat := s.trace.countP Event.isSettle

/-- The number of bits set in the occupancy set, `|OCC|` (R200). -/
def popCount (occ : U64) : Nat := (List.range 64).countP occ.getLsbD

/-- The context R30 and R257 give an error of operation `op` in the state `s`: the session registers are COMMISSION's and
`SCANIX` is SCAN's, and COMMISSION has not written `HIGH` before its first `CM_PASS` (R199, R231). -/
def errorContext (op : HostOp) (s : State) : ErrCtx :=
  { op       := op
    phase    := s.phase
    assigned := if op = .commission then some s.assigned else none
    low      := if op = .commission then some s.low else none
    high     :=
      if op = .commission ∧ s.phase ∉ [.cmReset1, .cmReset2, .cmInit1, .cmInit2, .cmRand1, .cmRand2] then some s.high
      else none
    scanix   := if op = .scan then some s.scanix else none }

/-- The state an issuing step leaves before its own updates: the frame written whole, and one settle (R152). -/
def State.sent (a c : Byte) (s : State) : State :=
  { s with
    env   := s.env.afterWrite s.cfg.cmd (pack (fwd a c))
    trace := .settle :: .write (pack (fwd a c)) (.written 34) :: s.trace }

/-- Bytes that show a response: one of them is not idle (R132). -/
def showsResponse (o : ReadOutcome) : Prop := ∃ x, o = .bytes x ∧ ∃ b ∈ x, b ≠ 0xFF

/-- The reference environment is attached and answers every call itself (R67): no answer is listed, no reset is due, and the
command record keeps the frames apart. -/
def State.onReferenceBus (s : State) (b : Bus) : Prop :=
  s.env.bus = some b ∧ s.env.writes = [] ∧ s.env.reads = [] ∧ s.resetIn = none ∧ s.cfg.cmd.distinct = true

/-- A device that takes part in the search: in addressing mode and not withdrawn (R234). -/
def activeSlave (d : Slave) : Bool := d.init && !d.wd

/-- The long address a test fixes for a device after the two RANDOMISE frames of a run (R71, R216). -/
def drawnLong (d : Slave) : U24 := (d.rand.drop 1).headD 0

end Sys2Proof.Machine
end

