-- ==== Sys2Proof/Certificates/Slice0/Obligations.lean ====
section
/-! DEFINITION. Certificates/Slice0/Obligations.lean: the statements about the model. Each says which rule of the spec it
formalises; a clause that rests on a choice of the model names its log entry. -/

open Sys2Proof Sys2Proof.Machine

/-! ### A step runs the instruction at hand -/

/-- An idle block's step runs the decoded request (R106). That the host's calls wait in a list whose head is taken off, its buffer
latched, is the model's choice (log entry 5), and so is the whole second clause, the reset input that counts down (log entry
10). -/
def Obligations.StepRunsDecodedRequest : Prop :=
  ∀ (s : State) (r : HostRequest) (rest : List HostRequest) (i : Instr),
    s.phase = .idle → s.requests = r :: rest → decodeRequest r.word = .ok i →
    (s.resetIn = none → step s = exec i { s with requests := rest, hostData := r.data }) ∧
    (∀ k, s.resetIn = some (k + 1) →
      step s = exec i { s with requests := rest, hostData := r.data, resetIn := some k })

/-- Inside a sequence the step runs the frame of the phase with the operand the registers give (R193 to R198, R212 to R230). -/
def Obligations.StepRunsFrameOfPhase : Prop :=
  ∀ s : State, s.resetIn = none →
    (s.phase = .scBoff → step s = exec .bcOff s) ∧
    (s.phase = .scQ → s.scanix < 64 → step s = exec (.queryStatus (BitVec.ofNat 6 s.scanix)) s) ∧
    (s.phase = .scTon → step s = exec (.saOn (BitVec.ofNat 6 s.scanix)) s) ∧
    (s.phase = .scToff → step s = exec (.saOff (BitVec.ofNat 6 s.scanix)) s) ∧
    (s.phase = .scBon → step s = exec .bcOn s) ∧
    (s.phase = .cmReset1 ∨ s.phase = .cmReset2 → step s = exec .bcReset s) ∧
    (s.phase = .cmInit1 ∨ s.phase = .cmInit2 → step s = exec .initialise s) ∧
    (s.phase = .cmRand1 ∨ s.phase = .cmRand2 → step s = exec .randomise s) ∧
    (s.phase = .cmSh ∨ s.phase = .cmXh → step s = exec (.searchaddrh (s.cand.extractLsb' 16 8)) s) ∧
    (s.phase = .cmSm ∨ s.phase = .cmXm → step s = exec (.searchaddrm (s.cand.extractLsb' 8 8)) s) ∧
    (s.phase = .cmSl ∨ s.phase = .cmXl → step s = exec (.searchaddrl (s.cand.extractLsb' 0 8)) s) ∧
    (s.phase = .cmCmp → step s = exec .compare s) ∧
    (s.phase = .cmProg → step s = exec (.programShort (BitVec.ofNat 6 s.assigned)) s) ∧
    (s.phase = .cmWdraw → step s = exec .withdraw s) ∧
    (s.phase = .cmLon → step s = exec (.saOn (BitVec.ofNat 6 s.assigned)) s) ∧
    (s.phase = .cmLoff → step s = exec (.saOff (BitVec.ofNat 6 s.assigned)) s) ∧
    (s.phase = .cmTerm → step s = exec .terminate s) ∧
    (s.phase = .cmBon → step s = exec .bcOn s)

/-- R280, R61: an idle block without a request waits. That its host has then stopped, which cuts a search the host was building on
the reference bus and draws a search already cut anew (R289), is the model's reading (log entry 9). -/
def Obligations.IdleBlockWaits : Prop :=
  ∀ s : State, s.phase = .idle → s.requests = [] → s.resetIn = none →
    ((∀ b, s.env.bus = some b → b.search = .closed ∧ b.seq = .idle) → step s = .next s) ∧
    (∀ b, s.env.bus = some b → b.search ≠ .closed ∨ b.seq ≠ .idle → step s = .next { s with env := s.env.interrupt })

/-! ### Encodings -/

/-- Every instruction is read back from its code, operands and all, under every command record that keeps the frames apart (R106,
R107, R113). -/
def Obligations.DecodeOfEncodeIsSame : Prop :=
  ∀ (cmd : Cmd) (i : Instr), cmd.distinct = true → decode cmd (encode cmd i) = .ok i

/-- Every code that decodes is the code of what it decodes to: no two codes stand for one instruction, under any command record
(R106, R107, R113). -/
def Obligations.EncodeOfDecodeIsSame : Prop :=
  ∀ (cmd : Cmd) (code : Code) (i : Instr), decode cmd code = .ok i → encode cmd i = code

/-- Words written out from R107 and R115 stand for what the spec says they do. -/
def Obligations.WordsOfTheSpecDecode : Prop :=
  decodeTableWord 24 0x00105 = some (.encode 0x01 0x05) ∧ decodeTableWord 24 0x10000 = some .classify ∧
  decodeTableWord 24 0x20010 = some (.decode 16) ∧ decodeTableWord 24 0x3FF20 = some (.issue 0xFF 0x20) ∧
  decodeTableWord 24 0x60000 = some .commission ∧ decodeTableWord 24 0x40001 = none ∧
  decodeTableWord 16 0xFF20 = some .bcReset ∧ decodeTableWord 16 0xB17F = some (.searchaddrh 0x7F) ∧
  decodeTableWord 16 0xB77F = some (.programShort 63) ∧ decodeTableWord 16 0x0790 = some (.queryStatus 3)

/-- R104: the token is the short-address form, bit 0 set, bits 6..1 the short address, bit 7 clear. -/
def Obligations.TokenIsShortAddressForm : Prop :=
  ∀ k : ShortAddr,
    (tok k).toNat = 1 + 2 * k.toNat ∧ tok k = 0#1 ++ k ++ 1#1 ∧ tok k = sa k ∧ (tok k).toNat ≤ 0x7F

/-- R108: the reserved operation code, a must-be-zero field that is not 0, a DECODE width other than 8 and 16, and any request of a
busy block are refused. -/
def Obligations.IllFormedRequestsAreRefused : Prop :=
  (∀ (s : State) (r : HostRequest) (rest : List HostRequest),
    s.phase = .idle → s.resetIn = none → s.requests = r :: rest →
    (r.word.extractLsb' 16 3 = 7 → step s = .refused .reservedOp) ∧
    (r.word.extractLsb' 16 3 ∈ [1#3, 4#3, 5#3, 6#3] → (r.word.extractLsb' 8 8 ≠ 0 ∨ r.word.extractLsb' 0 8 ≠ 0) →
      step s = .refused (.malformed .mustBeZero)) ∧
    (r.word.extractLsb' 16 3 = 2 → r.word.extractLsb' 8 8 ≠ 0 → step s = .refused (.malformed .mustBeZero)) ∧
    (r.word.extractLsb' 16 3 = 2 → r.word.extractLsb' 8 8 = 0 → r.word.extractLsb' 0 8 ≠ 8 →
      r.word.extractLsb' 0 8 ≠ 16 → step s = .refused .decodeWidth)) ∧
  (∀ (s : State) (i : Instr), s.phase ≠ .idle → framePair s.cfg.cmd i = none → ∃ r, exec i s = .refused r) ∧
  (∀ (s : State) (i : Instr), s.phase ≠ .idle → framePair s.cfg.cmd i = none → i.wf = true →
    exec i s = .refused .busy)

/-- R107, R108: the reserved operation code is refused in every state. -/
def Obligations.ReservedOperationIsRefused : Prop :=
  ∀ (s : State) (x : BitVec 16), exec (.reservedOp7 x) s = .refused .reservedOp

/-! ### Frames and the codec -/

/-- R93: the forward frame symbol by symbol. -/
def Obligations.ForwardFrameLayout : Prop :=
  ∀ a c : Byte,
    (fwd a c).length = 34 ∧ (fwd a c)[0]? = some true ∧ (fwd a c)[1]? = some false ∧
    ∀ j, 2 ≤ j → j < 34 →
      (fwd a c)[j]? = some ((a ++ c : BitVec 16).getLsbD (15 - (j - 2) / 2) ^^ decide ((j - 2) % 2 = 1))

/-- R94: the backward frame symbol by symbol. -/
def Obligations.BackwardFrameLayout : Prop :=
  ∀ r : Byte,
    (bwd r).length = 18 ∧ (bwd r)[0]? = some true ∧ (bwd r)[1]? = some false ∧
    ∀ j, 2 ≤ j → j < 18 → (bwd r)[j]? = some (r.getLsbD (7 - (j - 2) / 2) ^^ decide ((j - 2) % 2 = 1))

/-- R96, R97: one transport byte per symbol, so a forward frame is 34 bytes and a backward frame 18. -/
def Obligations.PackingIsOneByteASymbol : Prop :=
  (∀ (s : List Sym) (j : Nat), (pack s)[j]? = (s[j]?).map (fun b => if b then 0xFF else 0x00)) ∧
  (∀ a c : Byte, (pack (fwd a c)).length = 34) ∧ (∀ r : Byte, (pack (bwd r)).length = 18)

/-- R131: distinct pairs have distinct frames, on the bus and on the transport. -/
def Obligations.ForwardFramesAreDistinct : Prop :=
  ∀ a c a' c' : Byte, pack (fwd a c) = pack (fwd a' c') → a = a' ∧ c = c'

/-- R134: DECODE undoes the encoder and the packing, and a buffer DECODE gives a value for is the packing of the frame of that
value, and of no other. -/
def Obligations.DecodeReadsExactlyTheFrames : Prop :=
  (∀ a c : Byte, decodeBuffer 16 (pack (fwd a c)) = some (a ++ c)) ∧ (∀ r : Byte, decodeBuffer 8 (pack (bwd r)) = some r) ∧
  (∀ (x : List Byte) (v : Byte), decodeBuffer 8 x = some v → x = pack (bwd v)) ∧
  (∀ (x : List Byte) (a c : Byte), decodeBuffer 16 x = some (a ++ c) → x = pack (fwd a c))

/-- R130: ENCODE returns the frame and its bytes and changes nothing else. -/
def Obligations.EncodeReturnsFrame : Prop :=
  ∀ (s : State) (a c : Byte), s.phase = .idle →
    exec (.encode a c) s = .next
      { s with
        result := some (.frame (fwd a c) (pack (fwd a c)))
        status := .ok
        trace  := .returned (.frame (fwd a c) (pack (fwd a c))) :: s.trace }

/-- R132: CLASSIFY returns NoResponse when every byte is 0xFF, the empty buffer included, and Responded otherwise; nothing else
changes. -/
def Obligations.ClassifyReturnsPresence : Prop :=
  ∀ s : State, s.phase = .idle →
    ((∀ b ∈ s.hostData, b = 0xFF) →
      exec .classify s = .next
        { s with
          result := some (.classification .noResponse)
          status := .ok
          trace  := .returned (.classification .noResponse) :: s.trace }) ∧
    ((∃ b ∈ s.hostData, b ≠ 0xFF) →
      exec .classify s = .next
        { s with
          result := some (.classification .responded)
          status := .ok
          trace  := .returned (.classification .responded) :: s.trace })

/-- R134: DECODE returns the value of a frame and Invalid for every other buffer; nothing else changes. -/
def Obligations.DecodeReturnsValueOrInvalid : Prop :=
  ∀ (s : State) (r : Result), s.phase = .idle →
    ((∃ v, s.hostData = pack (bwd v) ∧ r = .byte v) ∨ ((∀ v, s.hostData ≠ pack (bwd v)) ∧ r = .invalid) →
      exec (.decode 8) s = .next { s with result := some r, status := .ok, trace := .returned r :: s.trace }) ∧
    ((∃ a c, s.hostData = pack (fwd a c) ∧ r = .pair (a ++ c)) ∨
        ((∀ a c, s.hostData ≠ pack (fwd a c)) ∧ r = .invalid) →
      exec (.decode 16) s = .next { s with result := some r, status := .ok, trace := .returned r :: s.trace })

/-- R133: every backward frame classifies Responded, so does the wired-AND of any devices' frames, and an idle buffer of every
length classifies NoResponse. -/
def Obligations.CollisionsClassifyResponded : Prop :=
  (∀ r : Byte, classify (pack (bwd r)) = .responded) ∧
  (∀ rs : List Byte, rs ≠ [] → classify (pack (wiredAnd (rs.map bwd))) = .responded) ∧
  (∀ n : Nat, classify (List.replicate n 0xFF) = .noResponse)

/-- R66: the symbol the master receives is the AND of what every answering device sends; of no device, the idle level. -/
def Obligations.BusIsWiredAnd : Prop :=
  ∀ (rs : List Byte) (j : Nat), j < 18 →
    (wiredAnd (rs.map bwd))[j]? = some (rs.all (fun r => (bwd r).getD j true))

/-- 40_codec.md: the codec's operations touch neither the transport nor a register other than `RESULT` and `STATUS`. -/
def Obligations.CodecOperationsTouchNothingElse : Prop :=
  ∀ (i : Instr) (s t : State), (∃ a c, i = .encode a c) ∨ i = .classify ∨ (∃ n, i = .decode n) →
    exec i s = .next t →
      s.phase = .idle ∧ t.phase = .idle ∧ t.env = s.env ∧ (∃ r, t.result = some r ∧ t.trace = .returned r :: s.trace) ∧
      t.status = .ok ∧ t.low = s.low ∧ t.high = s.high ∧ t.cand = s.cand ∧ t.assigned = s.assigned ∧
      t.scanix = s.scanix ∧ t.occ = s.occ ∧ t.resp = s.resp ∧ t.errctx = s.errctx ∧ t.cfg = s.cfg ∧
      t.requests = s.requests ∧ t.hostData = s.hostData ∧ t.resetIn = s.resetIn

/-! ### The transport, ISSUE and AWAIT -/

/-- R53: a read never brings more bytes than were asked for. -/
def Obligations.ReadsBringAtMostWhatWasAsked : Prop :=
  ∀ (e : Env) (m : Nat) (x : List Byte), e.nextRead m = .bytes x → x.length ≤ m

/-- R150: ISSUE writes the frame of any pair; a complete write returns `unit`, anything less is the write error, with no retry and
no settle. What such a write leaves of the reference slaves is 93 U9's draw, and a search lost (R289; log entry 9). -/
def Obligations.IssueWritesOneFrame : Prop :=
  ∀ (s : State) (a c : Byte), s.phase = .idle →
    (s.env.nextWrite = .written 34 →
      exec (.issue a c) s = .next
        { s with
          env    := s.env.afterWrite s.cfg.cmd (pack (fwd a c))
          result := some .unit
          status := .ok
          trace  := .returned .unit :: .write (pack (fwd a c)) (.written 34) :: s.trace }) ∧
    (s.env.nextWrite ≠ .written 34 →
      exec (.issue a c) s = .next
        { s with
          env    := (s.env.afterWrite s.cfg.cmd (pack (fwd a c))).cutHostSearch
          status := .transportWriteError
          errctx := some { op := .issue, phase := .idle, assigned := none, low := none, high := none, scanix := none }
          trace  := .failed .transportWriteError :: .write (pack (fwd a c)) s.env.nextWrite :: s.trace })

/-- R151: AWAIT reads once, at most 18 bytes; no bytes are the timeout error, another fault is the read error, and bytes are
classified as received. What the errors leave of the reference slaves is log entry 9: a read error cuts a search the host was
building (R289), a timeout cuts none. -/
def Obligations.AwaitReadsOneFrame : Prop :=
  ∀ (s : State) (o : ReadOutcome), s.phase = .idle → s.env.nextRead 18 = o →
    (o = .timeout ∨ o = .bytes [] →
      exec .await s = .next
        { s with
          env    := s.env.afterRead
          status := .transportReadTimeout
          errctx := some { op := .await, phase := .idle, assigned := none, low := none, high := none, scanix := none }
          trace  := .failed .transportReadTimeout :: .read 18 o :: s.trace }) ∧
    (o = .fail →
      exec .await s = .next
        { s with
          env    := s.env.afterRead.cutHostSearch
          status := .transportReadError
          errctx := some { op := .await, phase := .idle, assigned := none, low := none, high := none, scanix := none }
          trace  := .failed .transportReadError :: .read 18 o :: s.trace }) ∧
    (∀ x r, o = .bytes x → x ≠ [] →
      (showsResponse o ∧ r = .responded) ∨ ((∀ b ∈ x, b = 0xFF) ∧ r = .noResponse) →
      exec .await s = .next
        { s with
          env    := s.env.afterRead
          result := some (.classification r)
          status := .ok
          trace  := .returned (.classification r) :: .read 18 o :: s.trace })

/-! ### The bus frames -/

/-- R154 to R156, R193, R198, R214, R230: the broadcast frames at their phases, written whole. -/
def Obligations.BroadcastFramesComplete : Prop :=
  ∀ s : State, s.env.nextWrite = .written 34 →
    (s.phase = .cmReset1 →
      exec .bcReset s = .next { s.sent s.cfg.cmd.bcast s.cfg.cmd.reset with phase := .cmReset2 }) ∧
    (s.phase = .cmReset2 →
      exec .bcReset s = .next { s.sent s.cfg.cmd.bcast s.cfg.cmd.reset with phase := .cmInit1 }) ∧
    (s.phase = .scBoff → exec .bcOff s = .next { s.sent s.cfg.cmd.bcast s.cfg.cmd.off with phase := .scQ }) ∧
    (s.phase = .scBon →
      exec .bcOn s = .next
        { s.sent s.cfg.cmd.bcast s.cfg.cmd.on with
          phase  := .idle
          status := .ok
          result := some (.mask s.occ)
          trace  := .returned (.mask s.occ) :: (s.sent s.cfg.cmd.bcast s.cfg.cmd.on).trace }) ∧
    (s.phase = .cmBon →
      exec .bcOn s = .next
        { s.sent s.cfg.cmd.bcast s.cfg.cmd.on with
          phase  := .idle
          status := .ok
          result := some (.count s.assigned)
          trace  := .returned (.count s.assigned) :: (s.sent s.cfg.cmd.bcast s.cfg.cmd.on).trace })

/-- R157, R158, R162, R164, R165, R215, R216, R220, R226, R229: the special commands without an operand, written whole. -/
def Obligations.AddressingFramesComplete : Prop :=
  ∀ s : State, s.env.nextWrite = .written 34 →
    (s.phase = .cmInit1 →
      exec .initialise s = .next { s.sent s.cfg.cmd.initialise s.cfg.cmd.initData with phase := .cmInit2 }) ∧
    (s.phase = .cmInit2 →
      exec .initialise s = .next { s.sent s.cfg.cmd.initialise s.cfg.cmd.initData with phase := .cmRand1 }) ∧
    (s.phase = .cmRand1 →
      exec .randomise s = .next { s.sent s.cfg.cmd.randomise s.cfg.cmd.nodata with phase := .cmRand2 }) ∧
    (s.phase = .cmRand2 →
      exec .randomise s = .next { s.sent s.cfg.cmd.randomise s.cfg.cmd.nodata with phase := .cmPass }) ∧
    (s.phase = .cmCmp →
      exec .compare s = .next { s.sent s.cfg.cmd.compare s.cfg.cmd.nodata with phase := .cmAwait }) ∧
    (s.phase = .cmWdraw →
      exec .withdraw s = .next { s.sent s.cfg.cmd.withdraw s.cfg.cmd.nodata with phase := .cmLon }) ∧
    (s.phase = .cmTerm →
      exec .terminate s = .next { s.sent s.cfg.cmd.terminate s.cfg.cmd.nodata with phase := .cmBon })

/-- R159 to R161, R219, R224: the search-address frames, written whole, in the search and in the selection. -/
def Obligations.SearchAddressFramesComplete : Prop :=
  ∀ (s : State) (v : Byte), s.env.nextWrite = .written 34 →
    (s.phase = .cmSh → exec (.searchaddrh v) s = .next { s.sent s.cfg.cmd.searchaddrh v with phase := .cmSm }) ∧
    (s.phase = .cmSm → exec (.searchaddrm v) s = .next { s.sent s.cfg.cmd.searchaddrm v with phase := .cmSl }) ∧
    (s.phase = .cmSl → exec (.searchaddrl v) s = .next { s.sent s.cfg.cmd.searchaddrl v with phase := .cmCmp }) ∧
    (s.phase = .cmXh → exec (.searchaddrh v) s = .next { s.sent s.cfg.cmd.searchaddrh v with phase := .cmXm }) ∧
    (s.phase = .cmXm → exec (.searchaddrm v) s = .next { s.sent s.cfg.cmd.searchaddrm v with phase := .cmXl }) ∧
    (s.phase = .cmXl → exec (.searchaddrl v) s = .next { s.sent s.cfg.cmd.searchaddrl v with phase := .cmProg })

/-- R163, R166 to R168, R194, R196, R197, R225, R227, R228: the frames with a short address, written whole; the toggle's second
frame counts the address or the device. -/
def Obligations.ShortAddressFramesComplete : Prop :=
  ∀ (s : State) (k : ShortAddr), s.env.nextWrite = .written 34 →
    (s.phase = .cmProg →
      exec (.programShort k) s = .next { s.sent s.cfg.cmd.programShort (tok k) with phase := .cmWdraw }) ∧
    (s.phase = .scQ → exec (.queryStatus k) s = .next { s.sent (sa k) s.cfg.cmd.queryStatus with phase := .scAwait }) ∧
    (s.phase = .scTon → exec (.saOn k) s = .next { s.sent (sa k) s.cfg.cmd.on with phase := .scToff }) ∧
    (s.phase = .cmLon → exec (.saOn k) s = .next { s.sent (sa k) s.cfg.cmd.on with phase := .cmLoff }) ∧
    (s.phase = .scToff →
      exec (.saOff k) s = .next { s.sent (sa k) s.cfg.cmd.off with phase := .scQ, scanix := s.scanix + 1 }) ∧
    (s.phase = .cmLoff →
      exec (.saOff k) s = .next { s.sent (sa k) s.cfg.cmd.off with phase := .cmPass, assigned := s.assigned + 1 })

/-- R152, R199, R231, R253, R257: a frame of a sequence that is not written whole ends the operation at once with the write error
and its context: no settle, no further frame, `RESULT` unchanged. That the slaves' comparison state is then a draw is log entry
9. -/
def Obligations.UnwrittenFrameEndsSequence : Prop :=
  ∀ (i : Instr) (a c : Byte) (s : State) (op : HostOp),
    framePair s.cfg.cmd i = some (a, c) → s.phase.op = some op → s.env.nextWrite ≠ .written 34 →
    exec i s = .next
      { s with
        phase  := .idle
        status := .transportWriteError
        errctx := some (errorContext op s)
        env    := (s.env.afterWrite s.cfg.cmd (pack (fwd a c))).interrupt
        trace  := .failed .transportWriteError :: .write (pack (fwd a c)) s.env.nextWrite :: s.trace }

/-- R112, R113: run by an idle block, a bus frame is the ISSUE of its pair (the model's reading, log entry 11). -/
def Obligations.FrameOfIdleBlockIsIssue : Prop :=
  ∀ (i : Instr) (a c : Byte) (s : State),
    framePair s.cfg.cmd i = some (a, c) → s.phase = .idle → exec i s = exec (.issue a c) s

/-- R102, R103, R113: the pair of every bus frame. -/
def Obligations.FramePairsOfTheTable : Prop :=
  ∀ (cmd : Cmd) (v : Byte) (k : ShortAddr),
    framePair cmd .bcReset = some (cmd.bcast, cmd.reset) ∧ framePair cmd .bcOff = some (cmd.bcast, cmd.off) ∧
    framePair cmd .bcOn = some (cmd.bcast, cmd.on) ∧
    framePair cmd .initialise = some (cmd.initialise, cmd.initData) ∧
    framePair cmd .randomise = some (cmd.randomise, cmd.nodata) ∧
    framePair cmd (.searchaddrh v) = some (cmd.searchaddrh, v) ∧
    framePair cmd (.searchaddrm v) = some (cmd.searchaddrm, v) ∧
    framePair cmd (.searchaddrl v) = some (cmd.searchaddrl, v) ∧
    framePair cmd .compare = some (cmd.compare, cmd.nodata) ∧
    framePair cmd (.programShort k) = some (cmd.programShort, BitVec.ofNat 8 (1 + 2 * k.toNat)) ∧
    framePair cmd .withdraw = some (cmd.withdraw, cmd.nodata) ∧
    framePair cmd .terminate = some (cmd.terminate, cmd.nodata) ∧
    framePair cmd (.queryStatus k) = some (BitVec.ofNat 8 (1 + 2 * k.toNat), cmd.queryStatus) ∧
    framePair cmd (.saOn k) = some (BitVec.ofNat 8 (1 + 2 * k.toNat), cmd.on) ∧
    framePair cmd (.saOff k) = some (BitVec.ofNat 8 (1 + 2 * k.toNat), cmd.off)

/-! ### The scanner -/

/-- R192: SCAN's start sets `SCANIX`, `OCC` and `PHASE` and calls no transport. -/
def Obligations.ScanStarts : Prop :=
  ∀ s : State, s.phase = .idle → exec .scan s = .next { s with scanix := 0, occ := 0, phase := .scBoff }

/-- R195: `SC_AWAIT` reads once; a response marks the address and goes on to its toggle, everything else, read faults among them,
goes on to the next address. -/
def Obligations.ScanMarksAnsweringAddress : Prop :=
  ∀ s : State, s.resetIn = none → s.phase = .scAwait →
    (showsResponse (s.env.nextRead 18) →
      step s = .next
        { s with
          env   := s.env.afterRead
          trace := .read 18 (s.env.nextRead 18) :: s.trace
          resp  := .responded
          occ   := s.occ ||| (1#64 <<< s.scanix)
          phase := .scTon }) ∧
    (¬ showsResponse (s.env.nextRead 18) →
      step s = .next
        { s with
          env    := s.env.afterRead
          trace  := .read 18 (s.env.nextRead 18) :: s.trace
          resp   := .noResponse
          scanix := s.scanix + 1
          phase  := .scQ })

/-- R194: once all 64 addresses are probed, `SC_Q` goes to `SC_BON` with no transport call. -/
def Obligations.ScanEndsAfterLastAddress : Prop :=
  ∀ s : State, s.resetIn = none → s.phase = .scQ → s.scanix = 64 → step s = .next { s with phase := .scBon }

/-- R200: a SCAN that ends without error sends `66 + 2·|OCC|` frames, settles as often, reads 64 times and returns `OCC`. -/
def Obligations.ScanCost : Prop :=
  ∀ (s t : State) (k : Nat),
    s.phase = .scBoff → s.scanix = 0 → s.occ = 0 → s.resetIn = none → s.requests = [] →
    Sys2Proof.core.run k s = .next t → t.phase = .idle → t.status = .ok →
    t.result = some (.mask t.occ) ∧ t.writeCount = s.writeCount + 66 + 2 * popCount t.occ ∧
    t.settleCount = s.settleCount + 66 + 2 * popCount t.occ ∧ t.readCount = s.readCount + 64

/-! ### The commissioner -/

/-- R213: COMMISSION's start sets `LOW`, `ASSIGNED` and `PHASE`. -/
def Obligations.CommissionStarts : Prop :=
  ∀ s : State, s.phase = .idle → exec .commission s = .next { s with low := 0, assigned := 0, phase := .cmReset1 }

/-- R217: a pass starts from the ceiling with `LOW` carried forward, unless 64 devices have been assigned. -/
def Obligations.PassStartsFromCeiling : Prop :=
  ∀ s : State, s.resetIn = none → s.phase = .cmPass →
    (s.assigned = 64 → step s = .next { s with phase := .cmTerm }) ∧
    (s.assigned ≠ 64 → step s = .next { s with high := 0xFFFFFF, phase := .cmTest })

/-- R218, R256, R259: `CM_TEST` checks the window before anything else, takes the midpoint of a window wider than 1, and ends the
search of one of width 1. -/
def Obligations.SearchTestsWindow : Prop :=
  ∀ s : State, s.resetIn = none → s.phase = .cmTest →
    (s.high ≤ s.low → ∃ t, step s = .next t ∧ t.phase = .idle ∧ t.status = .protocolInvariantError ∧
      t.errctx = some (errorContext .commission s) ∧ t.result = s.result ∧
      t.trace = .failed .protocolInvariantError :: s.trace) ∧
    (s.low.toNat + 1 < s.high.toNat →
      step s = .next { s with cand := BitVec.ofNat 24 ((s.low.toNat + s.high.toNat) / 2), phase := .cmSh }) ∧
    (s.high.toNat = s.low.toNat + 1 → step s = .next { s with phase := .cmCheck })

/-- R221: a response lowers `HIGH` to the candidate, silence and a timeout raise `LOW` to it, and another read fault ends
COMMISSION with neither. That the slaves' comparison state is then a draw is log entry 9. -/
def Obligations.CompareMovesWindow : Prop :=
  ∀ s : State, s.resetIn = none → s.phase = .cmAwait →
    (showsResponse (s.env.nextRead 18) →
      step s = .next
        { s with
          env   := s.env.afterRead
          trace := .read 18 (s.env.nextRead 18) :: s.trace
          resp  := .responded
          high  := s.cand
          phase := .cmTest }) ∧
    (¬ showsResponse (s.env.nextRead 18) → s.env.nextRead 18 ≠ .fail →
      step s = .next
        { s with
          env   := s.env.afterRead
          trace := .read 18 (s.env.nextRead 18) :: s.trace
          resp  := .noResponse
          low   := s.cand
          phase := .cmTest }) ∧
    (s.env.nextRead 18 = .fail →
      step s = .next
        { s with
          phase  := .idle
          status := .transportReadError
          errctx := some (errorContext .commission s)
          env    := s.env.afterRead.interrupt
          trace  := .failed .transportReadError :: .read 18 .fail :: s.trace })

/-- R223: at the sentinel ceiling the run ends, otherwise the device at `LOW + 1` is selected. -/
def Obligations.PassEndSelectsDevice : Prop :=
  ∀ s : State, s.resetIn = none → s.phase = .cmCheck →
    (s.high = 0xFFFFFF → step s = .next { s with phase := .cmTerm }) ∧
    (s.high ≠ 0xFFFFFF → step s = .next { s with cand := s.low + 1, phase := .cmXh })

/-- R222: the midpoint loses nothing, lies strictly inside a window wider than 1, and halves it. -/
def Obligations.MidpointHalvesWindow : Prop :=
  ∀ low high : U24,
    (windowMid low high).toNat = (low.toNat + high.toNat) / 2 ∧
    (low.toNat + 1 < high.toNat →
      low < windowMid low high ∧ windowMid low high < high ∧
      (windowMid low high).toNat - low.toNat = (high.toNat - low.toNat) / 2 ∧
      high.toNat - (windowMid low high).toNat = (high.toNat - low.toNat + 1) / 2)

/-- R240: a COMMISSION that ends without error sends `6 + 4·reads + 7·ASSIGNED + 2` frames, settles as often, and returns
`ASSIGNED`. -/
def Obligations.CommissionCost : Prop :=
  ∀ (s t : State) (k : Nat),
    s.phase = .cmReset1 → s.low = 0 → s.assigned = 0 → s.resetIn = none → s.requests = [] →
    Sys2Proof.core.run k s = .next t → t.phase = .idle → t.status = .ok →
    t.result = some (.count t.assigned) ∧ t.assigned ≤ 64 ∧
    t.writeCount = s.writeCount + 6 + 4 * (t.readCount - s.readCount) + 7 * t.assigned + 2 ∧
    t.settleCount = s.settleCount + (t.writeCount - s.writeCount)

/-- R235: COMMISSION sends at most 6600 frames, whatever the transport answers. -/
def Obligations.CommissionFrameBound : Prop :=
  ∀ (s t : State) (k : Nat),
    s.phase = .cmReset1 → s.low = 0 → s.assigned = 0 → s.resetIn = none → s.requests = [] →
    Sys2Proof.core.run k s = .next t → t.writeCount ≤ s.writeCount + 6600

/-! ### Invariants, termination and errors -/

/-- The invariant holds after reset. -/
def Obligations.ResetMeetsInvariant : Prop := State.reset.Inv

/-- R24 to R28, R222, R223, R241: every step keeps the invariant, from every state that meets it and whatever the transport and
the host do. -/
def Obligations.StepKeepsInvariant : Prop := ∀ s t : State, s.Inv → step s = .next t → t.Inv

/-- R241: in no run from a state that meets the invariant is the window empty at `CM_TEST` or ProtocolInvariantError raised. -/
def Obligations.ProtocolInvariantErrorNeverRaised : Prop :=
  ∀ (s t : State) (k : Nat), s.Inv → s.status ≠ .protocolInvariantError → Sys2Proof.core.run k s = .next t →
    (t.phase = .cmTest → t.low < t.high) ∧ t.status ≠ .protocolInvariantError

/-- R235, R293: every sequence ends, whatever the transport answers, within the steps `stepsLeft` counts: 259 for SCAN from its
start, 9865 for COMMISSION. -/
def Obligations.EverySequenceEnds : Prop :=
  ∀ s : State, s.Inv → s.resetIn = none →
    (∃ k t, k ≤ s.stepsLeft ∧ Sys2Proof.core.run k s = .next t ∧ t.phase = .idle) ∧
    (s.phase = .scBoff → s.stepsLeft = 259) ∧ (s.phase = .cmReset1 → s.stepsLeft = 9865)

/-- R257: a step of a sequence that raises an error leaves the code in `STATUS`, the context in `ERRCTX` and the block idle, with
`RESULT` and every session and scan register as they were before the step. -/
def Obligations.ErrorEntryIsPrecise : Prop :=
  ∀ (s t : State) (e : ErrCode) (rest : List Event) (op : HostOp),
    s.resetIn = none → s.phase.op = some op → step s = .next t → t.trace = .failed e :: rest →
    s.trace.length < t.trace.length →
    t.phase = .idle ∧ t.status = e ∧ t.errctx = some (errorContext op s) ∧ t.result = s.result ∧ t.low = s.low ∧
    t.high = s.high ∧ t.cand = s.cand ∧ t.assigned = s.assigned ∧ t.scanix = s.scanix ∧ t.occ = s.occ ∧
    t.resp = s.resp ∧ t.cfg = s.cfg ∧ t.requests = s.requests ∧ t.hostData = s.hostData

/-- R62, R152, R259: what one step of a sequence adds to the observation: nothing; a frame written whole with its settle, and the
operation's result after the last one; one read; or one call, or none, and the error that ends the operation. -/
def Obligations.SequenceStepMakesOneCall : Prop :=
  ∀ s t : State, s.resetIn = none → s.phase ≠ .idle → step s = .next t →
    t.trace = s.trace ∨
    (∃ b, t.trace = .settle :: .write b (.written 34) :: s.trace) ∨
    (∃ b r, t.trace = .returned r :: .settle :: .write b (.written 34) :: s.trace) ∨
    (∃ o, t.trace = .read 18 o :: s.trace) ∨
    (∃ b o, o ≠ .written 34 ∧ t.trace = .failed .transportWriteError :: .write b o :: s.trace) ∨
    (t.trace = .failed .transportReadError :: .read 18 .fail :: s.trace) ∨
    (t.trace = .failed .protocolInvariantError :: s.trace)

/-- R33, R265: no step writes the configuration, and a step of a sequence leaves the host port alone. -/
def Obligations.ConfigurationIsFixed : Prop :=
  ∀ s t : State, step s = .next t →
    t.cfg = s.cfg ∧ (s.phase ≠ .idle → s.resetIn ≠ some 0 → t.requests = s.requests ∧ t.hostData = s.hostData)

/-- R108, R250: no step stops with a fault, and none is refused inside a sequence. -/
def Obligations.NoTrapsAndNoRefusalInSequence : Prop :=
  (∀ (s : State) (f : Fault), step s ≠ .fault f) ∧
  (∀ (s : State), s.phase ≠ .idle → ∃ t, step s = .next t)

/-- R20, R21: one step moves `PHASE` only along the transitions of R191 and R212, or ends the operation. -/
def Obligations.PhaseFollowsTable : Prop :=
  ∀ s t : State, s.resetIn = none → s.phase ≠ .idle → step s = .next t →
    t.phase = .idle ∨ (s.phase, t.phase) ∈
      [(.scBoff, .scQ), (.scQ, .scBon), (.scQ, .scAwait), (.scAwait, .scTon), (.scAwait, .scQ), (.scTon, .scToff),
       (.scToff, .scQ), (.cmReset1, .cmReset2), (.cmReset2, .cmInit1), (.cmInit1, .cmInit2), (.cmInit2, .cmRand1),
       (.cmRand1, .cmRand2), (.cmRand2, .cmPass), (.cmPass, .cmTerm), (.cmPass, .cmTest), (.cmTest, .cmSh),
       (.cmTest, .cmCheck), (.cmSh, .cmSm), (.cmSm, .cmSl), (.cmSl, .cmCmp), (.cmCmp, .cmAwait), (.cmAwait, .cmTest),
       (.cmCheck, .cmTerm), (.cmCheck, .cmXh), (.cmXh, .cmXm), (.cmXm, .cmXl), (.cmXl, .cmProg), (.cmProg, .cmWdraw),
       (.cmWdraw, .cmLon), (.cmLon, .cmLoff), (.cmLoff, .cmPass), (.cmTerm, .cmBon)]

/-! ### Reset -/

/-- R37, R280: after reset the block is idle with STATUS OK, ERRCTX and RESULT hold no value, and nothing has been sent. -/
def Obligations.ResetState : Prop :=
  State.reset.phase = .idle ∧ State.reset.status = .ok ∧ State.reset.errctx = none ∧ State.reset.result = none ∧
  State.reset.trace = []

/-- R281: reset ends the operation under way with no result and no error record; it sends nothing, frames already sent stay sent,
and the configuration stays. That the slaves' comparison state is then a draw, also when an idle block's reset cuts a search the
host was building, is log entry 9; the reset input and what stays of the host port are log entry 10. -/
def Obligations.ResetInputEndsOperation : Prop :=
  ∀ s : State, s.resetIn = some 0 →
    ∃ t, step s = .next t ∧ t.phase = .idle ∧ t.status = .ok ∧ t.errctx = none ∧ t.result = none ∧ t.trace = s.trace ∧
      t.cfg = s.cfg ∧ t.requests = s.requests ∧ t.resetIn = none ∧ (s.phase = .idle → t.env = s.env.cutHostSearch) ∧
      (s.phase ≠ .idle → t.env = s.env.interrupt)

/-! ### The reference environment -/

/-- R70 to R72, R74 to R76: what a frame does to the reference slaves, whatever search address is under way, but that an address
other traffic has broken is 93 U1's, the next statement's, and that until the next INITIALISE an interruption leaves a draw (R78,
93 U2). PROGRAM_SHORT takes bits 6..1 of any data byte (R74). The long address drawn is log entry 14, what breaks a search address
log entry 12, how long the draw lasts log entry 9. -/
def Obligations.ReferenceSlavesFollowFrames : Prop :=
  (∀ (b : Bus) (n j : Nat) (d : Slave) (v : Byte) (k : ShortAddr), b.slaves[j]? = some d →
    ((b.deliver n (some .initialise)).slaves[j]? =
      some (if d.short = none then { d with init := true, wd := false } else d)) ∧
    (b.search ≠ .lost →
      ((b.deliver n (some .randomise)).slaves[j]? =
        some (if d.init = true then
          (match d.rand with
            | []     => { d with long := Config.freeLong n j }
            | x :: r => { d with long := x, rand := r })
          else d)) ∧
      ((b.deliver n (some (.searchaddrh v))).slaves[j]? =
        some (if d.init = true then { d with sr := v ++ d.sr.extractLsb' 0 16 } else d)) ∧
      (b.seq.high ≠ .left → b.seq.low ≠ .left →
        (b.deliver n (some (.searchaddrm v))).slaves[j]? =
          some (if d.init = true then { d with sr := d.sr.extractLsb' 16 8 ++ v ++ d.sr.extractLsb' 0 8 } else d)) ∧
      (b.seq.high ≠ .left → b.seq.mid ≠ .left →
        (b.deliver n (some (.searchaddrl v))).slaves[j]? =
          some (if d.init = true then { d with sr := d.sr.extractLsb' 8 16 ++ v } else d)) ∧
      (b.seq.whole = false ∨ b.seq.mid ≠ .stale ∧ b.seq.low ≠ .stale →
        ((b.deliver n (some (.programShort k))).slaves[j]? =
          some (if d.init = true ∧ d.long = d.sr then { d with short := some k } else d)) ∧
        ((b.deliver n (some .withdraw)).slaves[j]? =
          some (if d.init = true ∧ d.long = d.sr then { d with wd := true } else d))) ∧
      ((b.deliver n (some .terminate)).slaves[j]? = some { d with init := false }))) ∧
  (∀ (cmd : Cmd) (t : Byte), cmd.distinct = true →
    slaveFrame cmd (cmd.programShort ++ t) = some (.programShort (t.extractLsb' 1 6)))

/-- R72, R285, 93 U1: three search-address frames with nothing between them store their address, whatever came before. Any other
frame breaks an address under way, and changes no search-address register by that; SEARCHADDRH begins one again. SEARCHADDRM and
SEARCHADDRL, come before or not, leave the register of every active device free when another byte came before other traffic, and
store their byte when none did. When all three bytes have come, COMPARE frees those registers before it acts if other traffic has
come since the first byte, PROGRAM_SHORT and WITHDRAW if it came between the bytes (a byte from before it is then still in use).
Which frames break an address, and that COMPARE, PROGRAM_SHORT or WITHDRAW of a whole one ends it, is log entry 12. -/
def Obligations.SearchAddressIsStoredOnlyUninterrupted : Prop :=
  (∀ (b : Bus) (n₁ n₂ n₃ j : Nat) (d : Slave) (h m l : Byte), b.search ≠ .lost → b.slaves[j]? = some d → d.init = true →
    ∃ b', b' = ((b.deliver n₁ (some (.searchaddrh h))).deliver n₂ (some (.searchaddrm m))).deliver n₃ (some (.searchaddrl l)) ∧
      b'.seq = .ready ∧ b'.slaves[j]? = some { d with sr := h ++ m ++ l }) ∧
  (∀ (b : Bus) (n : Nat) (i : Option Instr),
    i = none ∨ i ∈ [Instr.bcReset, .bcOff, .bcOn, .initialise, .randomise, .terminate].map some ∨
        (∃ k, i = some (.queryStatus k) ∨ i = some (.saOn k) ∨ i = some (.saOff k)) ∨
        b.seq.whole = false ∧ (i = some .compare ∨ i = some .withdraw ∨ ∃ k, i = some (.programShort k)) →
      (b.deliver n i).seq =
        { high := if b.seq.high = .sent then .left else b.seq.high
          mid  := if b.seq.mid = .sent then .left else b.seq.mid
          low  := if b.seq.low = .sent then .left else b.seq.low } ∧
      (b.search ≠ .lost → ∀ (j : Nat) (d d' : Slave),
        b.slaves[j]? = some d → (b.deliver n i).slaves[j]? = some d' → d'.sr = d.sr)) ∧
  (∀ (b : Bus) (n : Nat) (v : Byte),
    (b.deliver n (some (.searchaddrh v))).seq =
      { high := .sent
        mid  := if b.seq.mid = .left then .stale else b.seq.mid
        low  := if b.seq.low = .left then .stale else b.seq.low } ∧
    (b.deliver n (some (.searchaddrm v))).seq =
      { b.seq with mid := if b.seq.high = .left ∨ b.seq.low = .left then .left else .sent } ∧
    (b.deliver n (some (.searchaddrl v))).seq =
      { b.seq with low := if b.seq.high = .left ∨ b.seq.mid = .left then .left else .sent }) ∧
  (∀ (b : Bus) (n j : Nat) (d : Slave) (v : Byte), b.search ≠ .lost → b.slaves[j]? = some d → d.init = true →
    (d.wd = false → b.seq.high = .left ∨ b.seq.low = .left →
      (b.deliver n (some (.searchaddrm v))).slaves[j]? = some { d with sr := (Config.freeSlave n j).sr }) ∧
    (d.wd = false → b.seq.high = .left ∨ b.seq.mid = .left →
      (b.deliver n (some (.searchaddrl v))).slaves[j]? = some { d with sr := (Config.freeSlave n j).sr }) ∧
    (d.wd = true ∨ b.seq.high ≠ .left ∧ b.seq.low ≠ .left →
      (b.deliver n (some (.searchaddrm v))).slaves[j]? =
        some { d with sr := d.sr.extractLsb' 16 8 ++ v ++ d.sr.extractLsb' 0 8 }) ∧
    (d.wd = true ∨ b.seq.high ≠ .left ∧ b.seq.mid ≠ .left →
      (b.deliver n (some (.searchaddrl v))).slaves[j]? = some { d with sr := d.sr.extractLsb' 8 16 ++ v })) ∧
  (∀ (b : Bus) (n : Nat), b.search ≠ .lost → b.seq.whole = true → b.seq ≠ .ready →
    (∀ (j : Nat) (d : Slave), b.slaves[j]? = some d →
      (b.deliver n (some .compare)).slaves[j]? =
        some (if d.init = true ∧ d.wd = false then { d with sr := (Config.freeSlave n j).sr } else d)) ∧
    ((∃ (j : Nat) (d : Slave), b.slaves[j]? = some d ∧ d.init = true ∧ d.wd = false ∧ d.long ≤ (Config.freeSlave n j).sr) →
      ∃ x, (b.deliver n (some .compare)).reply = some x ∧ x.length = 18 ∧ classify x = .responded) ∧
    ((∀ (j : Nat) (d : Slave), b.slaves[j]? = some d →
        ¬ (d.init = true ∧ d.wd = false ∧ d.long ≤ (Config.freeSlave n j).sr)) →
      (b.deliver n (some .compare)).reply = none)) ∧
  (∀ (b : Bus) (n j : Nat) (d : Slave) (k : ShortAddr), b.search ≠ .lost → b.slaves[j]? = some d → d.init = true → d.wd = false →
    b.seq.whole = true → b.seq.mid = .stale ∨ b.seq.low = .stale →
    ((b.deliver n (some (.programShort k))).slaves[j]? =
      some { d with
        sr    := (Config.freeSlave n j).sr
        short := if d.long = (Config.freeSlave n j).sr then some k else d.short }) ∧
    ((b.deliver n (some .withdraw)).slaves[j]? =
      some { d with
        sr := (Config.freeSlave n j).sr
        wd := decide (d.long = (Config.freeSlave n j).sr) })) ∧
  (∀ (b : Bus) (n : Nat) (k : ShortAddr), b.seq.whole = true →
    (b.deliver n (some .compare)).seq = .idle ∧ (b.deliver n (some (.programShort k))).seq = .idle ∧
      (b.deliver n (some .withdraw)).seq = .idle)

/-- R78, R289, 93 U2, U9: an interruption leaves search address, addressing mode and withdrawn mark of every device free, a frame
not wholly written the whole device and the bytes on the bus, and each frame after either, but for INITIALISE, leaves the three free
again; all else of a device is as the frame makes it. INITIALISE ends this. A search is cut from the first of its frames to
TERMINATE. That a frame draws anew is the model's reading of "until the next INITIALISE", and when a search is under way is too (log
entry 9). -/
def Obligations.InterruptedSearchStaysFree : Prop :=
  (∀ (b : Bus) (n j : Nat) (d : Slave), b.slaves[j]? = some d →
    (b.interrupt n).search = .lost ∧ (b.interrupt n).seq = .idle ∧
    (b.interrupt n).slaves[j]? =
      some { d with
        sr   := (Config.freeSlave n j).sr
        init := (Config.freeSlave n j).init
        wd   := (Config.freeSlave n j).wd }) ∧
  (∀ (b : Bus) (cmd : Cmd) (n j : Nat) (d : Slave) (x : List Byte) (o : WriteOutcome), b.slaves[j]? = some d → o ≠ .written 34 →
    (b.afterWrite cmd n x o).search = .lost ∧ (b.afterWrite cmd n x o).seq = .idle ∧
    (b.afterWrite cmd n x o).slaves[j]? = some (Config.freeSlave n j) ∧
    (b.afterWrite cmd n x o).reply = Config.freeReply n) ∧
  (∀ (b : Bus) (n j : Nat) (d d' : Slave) (i : Option Instr),
    b.search = .lost → i ≠ some .initialise → b.slaves[j]? = some d →
    (i = none ∧ d' = d ∨ ∃ f, i = some f ∧ d' = slaveEffect (Config.freeLong n j) f d) →
    (b.deliver n i).search = .lost ∧
    (b.deliver n i).slaves[j]? =
      some { d' with
        sr   := (Config.freeSlave n j).sr
        init := (Config.freeSlave n j).init
        wd   := (Config.freeSlave n j).wd }) ∧
  (∀ (b : Bus) (n : Nat), (b.deliver n (some .initialise)).search = .opened) ∧
  (∀ (b : Bus) (n : Nat) (i : Option Instr), b.search ≠ .lost →
    (i ∈ [Instr.randomise, .compare, .withdraw].map some ∨
        (∃ v, i = some (.searchaddrh v) ∨ i = some (.searchaddrm v) ∨ i = some (.searchaddrl v)) ∨
        (∃ k, i = some (.programShort k)) →
      (b.deliver n i).search = .opened) ∧
    (i = none ∨ i ∈ [Instr.bcReset, .bcOff, .bcOn].map some ∨
        (∃ k, i = some (.queryStatus k) ∨ i = some (.saOn k) ∨ i = some (.saOff k)) →
      (b.deliver n i).search = b.search) ∧
    (b.deliver n (some .terminate)).search = .closed) ∧
  (∀ (e : Env) (b : Bus), e.bus = some b →
    (b.search ≠ .closed ∨ b.seq ≠ .idle → e.cutHostSearch = e.interrupt) ∧
    (b.search = .closed → b.seq = .idle → e.cutHostSearch = e))

/-- R69, R77, R78: RESET and QUERY_STATUS leave every reference slave as it was; OFF and ON set the lamp of every slave or of those
at the short address. QUERY_STATUS is answered exactly when a slave holds the short address, and the answer classifies Responded;
no frame but COMPARE and QUERY_STATUS is answered (R69 to R72, R74 to R76, R78). That RESET keeps the lamp too is the model's
choice (log entry 16): R69 does not name it. That an interruption's draw goes on is log entry 9. -/
def Obligations.ReferenceLampsAndStatusAnswers : Prop :=
  (∀ (b : Bus) (n j : Nat) (d : Slave) (k : ShortAddr), b.search ≠ .lost → b.slaves[j]? = some d →
    ((b.deliver n (some .bcReset)).slaves[j]? = some d) ∧
    ((b.deliver n (some .bcOff)).slaves[j]? = some { d with lamp := false }) ∧
    ((b.deliver n (some .bcOn)).slaves[j]? = some { d with lamp := true }) ∧
    ((b.deliver n (some (.saOn k))).slaves[j]? = some (if d.short = some k then { d with lamp := true } else d)) ∧
    ((b.deliver n (some (.saOff k))).slaves[j]? = some (if d.short = some k then { d with lamp := false } else d)) ∧
    ((b.deliver n (some (.queryStatus k))).slaves[j]? = some d)) ∧
  (∀ (b : Bus) (n : Nat) (k : ShortAddr),
    ((∃ e ∈ b.slaves, e.short = some k) →
      ∃ x, (b.deliver n (some (.queryStatus k))).reply = some x ∧ x.length = 18 ∧ classify x = .responded) ∧
    ((∀ e ∈ b.slaves, e.short ≠ some k) → (b.deliver n (some (.queryStatus k))).reply = none)) ∧
  (∀ (b : Bus) (n : Nat) (i : Option Instr), i ≠ some .compare → (∀ k, i ≠ some (.queryStatus k)) →
    (b.deliver n i).reply = none)

/-- R73, R66: a COMPARE is answered exactly when an active device's long address is at most its search address, and the answer,
of one device or of many, classifies Responded; when other traffic has come after a whole search address the registers compared
are 93 U1's draws, of which SearchAddressIsStoredOnlyUninterrupted says the same. -/
def Obligations.CompareIsAnsweredByActiveDevices : Prop :=
  ∀ (b : Bus) (n : Nat), b.seq.whole = false ∨ b.seq = .ready →
    ((∃ d ∈ b.slaves, d.init = true ∧ d.wd = false ∧ d.long ≤ d.sr) →
      ∃ x, (b.deliver n (some .compare)).reply = some x ∧ x.length = 18 ∧ classify x = .responded) ∧
    ((∀ d ∈ b.slaves, ¬ (d.init = true ∧ d.wd = false ∧ d.long ≤ d.sr)) →
      (b.deliver n (some .compare)).reply = none)

/-- R232, R234: on the reference bus a search from a window that contains the least active long address `m` (or none below its
upper bound `m`) ends within its compares at `CM_CHECK` with `HIGH = m = LOW + 1`, and no slave but for its search-address
register has changed; a search that an interruption has made a draw (R289) is no such search. -/
def Obligations.SearchIsolatesLeastDevice : Prop :=
  ∀ (s : State) (b : Bus) (m : U24),
    s.onReferenceBus b → b.search ≠ .lost → s.phase = .cmTest → s.low < m → m ≤ s.high →
    (∀ d ∈ b.slaves, activeSlave d = true → m ≤ d.long) →
    (m = s.high ∨ ∃ d ∈ b.slaves, activeSlave d = true ∧ d.long = m) →
    ∃ (k : Nat) (t : State) (b' : Bus),
      k ≤ 6 * s.comparesLeft + 1 ∧ Sys2Proof.core.run k s = .next t ∧ t.onReferenceBus b' ∧ t.phase = .cmCheck ∧
      t.high = m ∧ t.low + 1 = m ∧ t.assigned = s.assigned ∧ b'.search ≠ .lost ∧ b'.slaves.length = b.slaves.length ∧
      ∀ (j : Nat) (d d' : Slave), b.slaves[j]? = some d → b'.slaves[j]? = some d' → d' = { d with sr := d'.sr }

/-- R233: on the reference bus, N ≤ 64 unbound devices with distinct long addresses in 1..0xFFFFFE after randomisation, and no
bound device at a short address below N: COMMISSION ends without error with the count N, the device with the k-th smallest long
address holds short address k, every one of them is withdrawn, no bound device's address changes, and no new device shares its
short address. It runs so from a search cut short before too (R289), as long as no bound device is there, whose addressing mode is
then a draw. -/
def Obligations.CommissionAssignsInAscendingOrder : Prop :=
  ∀ (s : State) (b : Bus) (new : List Slave),
    s.onReferenceBus b → (b.search = .lost → ∀ d ∈ b.slaves, d.short = none) →
    s.phase = .cmReset1 → s.low = 0 → s.assigned = 0 →
    new = b.slaves.filter (fun d => d.short.isNone) → new.length ≤ 64 →
    (∀ d ∈ b.slaves, d.short ≠ none → d.init = false ∧ ∀ k, d.short = some k → new.length ≤ k.toNat) →
    (∀ d ∈ new, 2 ≤ d.rand.length ∧ 1 ≤ (drawnLong d).toNat ∧ (drawnLong d).toNat ≤ 0xFFFFFE) →
    (new.map drawnLong).Nodup →
    ∃ (k : Nat) (t : State) (b' : Bus),
      Sys2Proof.core.run k s = .next t ∧ t.phase = .idle ∧ t.status = .ok ∧ t.result = some (.count new.length) ∧
      t.env.bus = some b' ∧ b'.slaves.length = b.slaves.length ∧
      (∀ (j : Nat) (d d' : Slave), b.slaves[j]? = some d → b'.slaves[j]? = some d' →
        (d.short = none →
          d'.long = drawnLong d ∧ d'.wd = true ∧
          d'.short = some (BitVec.ofNat 6 (new.countP (fun e => drawnLong e < drawnLong d)))) ∧
        (d.short ≠ none → d'.short = d.short)) ∧
      (∀ (i j : Nat) (d d' e' : Slave), i ≠ j → b.slaves[i]? = some d → d.short = none → b'.slaves[i]? = some d' →
        b'.slaves[j]? = some e' → d'.short ≠ e'.short)
end

