-- ==== Sys2Proof/Laws/Bus.lean ====
section
/-! SUPPORT. Laws/Bus.lean: the laws of the reference bus: how far a search address has come (R285), what the three search-address
bytes make of a register (R72), and what a delivered frame does to one slave (R67). -/

namespace Sys2Proof.Machine

theorem SearchSeq.whole_iff (q : SearchSeq) : q.whole = true ↔ q.high ≠ .absent ∧ q.mid ≠ .absent ∧ q.low ≠ .absent := by
  simp [SearchSeq.whole, and_assoc]

theorem ByteAge.outdate_ne_left (a : ByteAge) : a.outdate ≠ .left := by cases a <;> decide

/-- The three search-address frames with nothing between them make a whole address, whatever came before, and free no register. -/
theorem SearchSeq.high_mid_low (q : SearchSeq) :
    q.sendHigh.sendMid.2 = .never ∧ q.sendHigh.sendMid.1.sendLow = (.ready, .never) := by
  obtain ⟨a, b, c⟩ := q
  cases b <;> cases c <;> exact ⟨rfl, rfl⟩

/-- SEARCHADDRM frees the register exactly when another byte came before other traffic (R285, 93 U1). -/
theorem SearchSeq.sendMid_draw (q : SearchSeq) :
    q.sendMid.2 = if q.high = .left ∨ q.low = .left then SrDraw.after else SrDraw.never := by
  obtain ⟨a, b, c⟩ := q
  cases a <;> cases c <;> rfl

/-- SEARCHADDRL, as SEARCHADDRM. -/
theorem SearchSeq.sendLow_draw (q : SearchSeq) :
    q.sendLow.2 = if q.high = .left ∨ q.mid = .left then SrDraw.after else SrDraw.never := by
  obtain ⟨a, b, c⟩ := q
  cases a <;> cases b <;> rfl

/-- What COMPARE does to the address, and to the registers before it acts (R285). -/
theorem SearchSeq.compare_eq (q : SearchSeq) :
    q.compare = if q.whole then (.idle, if q = .ready then .never else .before) else (q.split, .never) := by
  unfold SearchSeq.compare SearchSeq.finish
  by_cases h : q = .ready <;> simp [h]

/-- What PROGRAM_SHORT and WITHDRAW do to the address, and to the registers before they act. -/
theorem SearchSeq.select_eq (q : SearchSeq) :
    q.select = if q.whole then (.idle, if q.outdated then .before else .never) else (q.split, .never) := rfl

/-- The only frames that free a search-address register: SEARCHADDRM and SEARCHADDRL after a byte that came before other traffic,
and COMPARE, PROGRAM_SHORT and WITHDRAW of a whole address (R285, 93 U1). -/
theorem SearchSeq.after_draw (q : SearchSeq) (i : Option Instr) :
    (q.after i).2 = .never ∨
    ((q.after i).2 = .after ∧ ((∃ v, i = some (.searchaddrm v)) ∨ ∃ v, i = some (.searchaddrl v))) ∨
    ((q.after i).2 = .before ∧ q.whole = true ∧ q ≠ .ready ∧
      (i = some .compare ∨ i = some .withdraw ∨ ∃ k, i = some (.programShort k))) := by
  have hs : q.outdated = true → q ≠ .ready := by rintro h rfl; exact absurd h (by decide)
  cases i with
  | none => exact .inl rfl
  | some i =>
    cases i with
    | searchaddrm v =>
      by_cases h : q.high = .left ∨ q.low = .left
      · exact .inr (.inl ⟨by simp [SearchSeq.after, SearchSeq.sendMid_draw, h], .inl ⟨v, rfl⟩⟩)
      · exact .inl (by simp [SearchSeq.after, SearchSeq.sendMid_draw, h])
    | searchaddrl v =>
      by_cases h : q.high = .left ∨ q.mid = .left
      · exact .inr (.inl ⟨by simp [SearchSeq.after, SearchSeq.sendLow_draw, h], .inr ⟨v, rfl⟩⟩)
      · exact .inl (by simp [SearchSeq.after, SearchSeq.sendLow_draw, h])
    | compare =>
      by_cases h : q.whole = true ∧ q ≠ .ready
      · exact .inr (.inr ⟨by simp [SearchSeq.after, SearchSeq.compare_eq, h], h.1, h.2, .inl rfl⟩)
      · refine .inl ?_
        simp only [SearchSeq.after, SearchSeq.compare_eq]
        split <;> simp_all
    | programShort k =>
      by_cases h : q.whole = true ∧ q.outdated = true
      · exact .inr (.inr ⟨by simp [SearchSeq.after, SearchSeq.select_eq, h], h.1, hs h.2, .inr (.inr ⟨k, rfl⟩)⟩)
      · refine .inl ?_
        simp only [SearchSeq.after, SearchSeq.select_eq]
        split <;> simp_all
    | withdraw =>
      by_cases h : q.whole = true ∧ q.outdated = true
      · exact .inr (.inr ⟨by simp [SearchSeq.after, SearchSeq.select_eq, h], h.1, hs h.2, .inr (.inl rfl)⟩)
      · refine .inl ?_
        simp only [SearchSeq.after, SearchSeq.select_eq]
        split <;> simp_all
    | _ => exact .inl rfl

/-- No frame loses a search; only an interruption does. -/
theorem Search.after_ne_lost {q : Search} (i : Option Instr) (h : q ≠ .lost) : q.after i ≠ .lost := by
  unfold Search.after
  repeat' split
  all_goals first | decide | contradiction | exact h

/-- A lost search stays lost until an INITIALISE (93 U2). -/
theorem Search.after_lost {i : Option Instr} (h : i ≠ some .initialise) : Search.lost.after i = .lost := by
  simp [Search.after, h]

@[simp] theorem Search.after_initialise (q : Search) : q.after (some .initialise) = .opened := by simp [Search.after]

/-- A frame of a search leaves one under way, unless an interruption has lost it (R289). -/
theorem Search.after_searches {q : Search} {i : Instr} (h : searches i = true) (hq : q ≠ .lost) : q.after (some i) = .opened := by
  have : i ≠ .terminate := by rintro rfl; exact absurd h (by decide)
  simp [Search.after, h, hq, this]

theorem getLsbD_append_low (x : BitVec 16) (y : Byte) (i : Nat) :
    (x ++ y : U24).getLsbD i = if i < 8 then y.getLsbD i else x.getLsbD (i - 8) := BitVec.getLsbD_append

/-- The three bytes make the address, whatever the register held (R72, R105). -/
theorem setLowByte_setMidByte_setHighByte (h m l : Byte) (v : U24) :
    setLowByte l (setMidByte m (setHighByte h v)) = h ++ m ++ l := by
  apply BitVec.eq_of_getLsbD_eq; intro i hi
  simp only [setLowByte, setMidByte, setHighByte, highByte, lowByte]
  rw [getLsbD_append_low, getLsbD_append_low]
  split
  · rfl
  · rename_i h3
    rw [BitVec.getLsbD_extractLsb', BitVec.getLsbD_append, BitVec.getLsbD_append, BitVec.getLsbD_append,
      BitVec.getLsbD_extractLsb']
    have h1 : 8 + (i - 8) = i := by omega
    have h2 : i - 8 < 16 := by omega
    simp only [h1, h2, h3, decide_true, Bool.true_and, if_false]
    split
    · rfl
    · rw [BitVec.getLsbD_extractLsb', BitVec.getLsbD_append]
      have h4 : i - 8 - 8 < 8 := by omega
      have h5 : ¬ (16 + (i - 8 - 8) < 16) := by omega
      have h6 : 16 + (i - 8 - 8) - 16 = i - 8 - 8 := by omega
      simp [h4, h5, h6]

@[simp] theorem corruptAll_false (n : Nat) (ds : List Slave) : corruptAll n false ds = ds := rfl
@[simp] theorem loseAll_false (n : Nat) (ds : List Slave) : loseAll n false ds = ds := rfl

theorem corruptAll_getElem? {n j : Nat} {ds : List Slave} {d : Slave} (hj : ds[j]? = some d) :
    (corruptAll n true ds)[j]? = some (corruptSr (Config.freeSlave n j) d) := by simp [corruptAll, hj]

theorem loseAll_getElem? {n j : Nat} {ds : List Slave} {d : Slave} (hj : ds[j]? = some d) :
    (loseAll n true ds)[j]? = some (loseSearch (Config.freeSlave n j) d) := by simp [loseAll, hj]

theorem actAll_getElem? {n j : Nat} {ds : List Slave} {d : Slave} (i : Instr) (hj : ds[j]? = some d) :
    (actAll n (some i) ds)[j]? = some (slaveEffect (Config.freeLong n j) i d) := by simp [actAll, hj]

/-- The slaves after a frame, as long as no search is lost: only the frame's own effect and its draw of 93 U1. -/
theorem Bus.deliver_slaves {b : Bus} {n : Nat} (i : Option Instr) (hl : b.search.after i ≠ .lost) :
    (b.deliver n i).slaves =
      corruptAll n ((b.seq.after i).2 == .after) (actAll n i (corruptAll n ((b.seq.after i).2 == .before) b.slaves)) := by
  simp only [Bus.deliver, beq_eq_false_iff_ne.mpr hl, loseAll_false, if_neg hl]

/-- The slaves after a frame while a search is lost: the frame's own effect, and the draw of 93 U2. -/
theorem Bus.deliver_slaves_lost {b : Bus} {n : Nat} (i : Option Instr) (hl : b.search.after i = .lost) :
    (b.deliver n i).slaves = loseAll n true (actAll n i b.slaves) := by
  simp only [Bus.deliver, hl, if_true]; rfl

/-- What a frame that frees nothing does to one slave. -/
theorem Bus.deliver_slave_of_never {b : Bus} {n j : Nat} {d : Slave} {i : Instr} (hj : b.slaves[j]? = some d)
    (hl : b.search.after (some i) ≠ .lost) (hq : (b.seq.after (some i)).2 = .never) :
    (b.deliver n (some i)).slaves[j]? = some (slaveEffect (Config.freeLong n j) i d) := by
  rw [Bus.deliver_slaves (some i) hl, hq]; exact actAll_getElem? i hj

/-- What a frame that frees the search address before it acts does to one slave. -/
theorem Bus.deliver_slave_of_before {b : Bus} {n j : Nat} {d : Slave} {i : Instr} (hj : b.slaves[j]? = some d)
    (hl : b.search.after (some i) ≠ .lost) (hq : (b.seq.after (some i)).2 = .before) :
    (b.deliver n (some i)).slaves[j]? = some (slaveEffect (Config.freeLong n j) i (corruptSr (Config.freeSlave n j) d)) := by
  rw [Bus.deliver_slaves (some i) hl, hq]; exact actAll_getElem? i (corruptAll_getElem? hj)

/-- What a frame that frees the search address after it has acted does to one slave. -/
theorem Bus.deliver_slave_of_after {b : Bus} {n j : Nat} {d : Slave} {i : Instr} (hj : b.slaves[j]? = some d)
    (hl : b.search.after (some i) ≠ .lost) (hq : (b.seq.after (some i)).2 = .after) :
    (b.deliver n (some i)).slaves[j]? = some (corruptSr (Config.freeSlave n j) (slaveEffect (Config.freeLong n j) i d)) := by
  rw [Bus.deliver_slaves (some i) hl, hq]; exact corruptAll_getElem? (actAll_getElem? i hj)

@[simp] theorem Bus.deliver_seq (b : Bus) (n : Nat) (i : Option Instr) : (b.deliver n i).seq = (b.seq.after i).1 := rfl
@[simp] theorem Bus.deliver_search (b : Bus) (n : Nat) (i : Option Instr) :
    (b.deliver n i).search = b.search.after i := rfl
@[simp] theorem Bus.interrupt_seq (b : Bus) (n : Nat) : (b.interrupt n).seq = .idle := rfl
@[simp] theorem Bus.interrupt_search (b : Bus) (n : Nat) : (b.interrupt n).search = .lost := rfl
@[simp] theorem Bus.interrupt_reply (b : Bus) (n : Nat) : (b.interrupt n).reply = b.reply := rfl
@[simp] theorem Bus.disturb_seq (b : Bus) (n : Nat) : (b.disturb n).seq = .idle := rfl
@[simp] theorem Bus.disturb_search (b : Bus) (n : Nat) : (b.disturb n).search = .lost := rfl

/-- What an interruption outside the block's sequences can do: nothing, or cut the host's search (R289). -/
theorem Env.cutHostSearch_cases (e : Env) :
    (e.cutHostSearch = e ∧ ∀ b, e.bus = some b → b.inSearch = false) ∨
    (e.cutHostSearch = e.interrupt ∧ ∃ b, e.bus = some b ∧ b.inSearch = true) := by
  cases h : e.bus with
  | none => exact .inl ⟨by simp [Env.cutHostSearch, h], by simp⟩
  | some b =>
    cases hs : b.inSearch
    · exact .inl ⟨by simp [Env.cutHostSearch, h, hs], by simp [hs]⟩
    · exact .inr ⟨by simp [Env.cutHostSearch, h, hs], b, rfl, hs⟩

/-- On the reference bus a write that is not complete is always an interruption (R289, 93 U9). -/
theorem Env.cutHostSearch_afterWrite {e : Env} {b : Bus} (cmd : Cmd) (x : List Byte) (hb : e.bus = some b)
    (h : writeComplete e.nextWrite = false) :
    (e.afterWrite cmd x).cutHostSearch = (e.afterWrite cmd x).interrupt := by
  simp [Env.afterWrite, Env.cutHostSearch, hb, Bus.afterWrite, h, Bus.inSearch]

end Sys2Proof.Machine
end

