-- ==== Sys2Proof/Laws/Codec.lean ====
section
/-! SUPPORT. Laws/Codec.lean: the small laws of symbols, packings and bit sequences that the statements about frames are put
together from (30_encoding.md rules R91 to R97, 40_codec.md rules R132 and R134). -/

namespace Sys2Proof.Machine

@[simp] theorem length_bitsMsb {n : Nat} (v : BitVec n) : (bitsMsb v).length = n := by simp [bitsMsb]

theorem length_flatMap_bi (l : List Bool) : (l.flatMap bi).length = 2 * l.length := by
  induction l with
  | nil => rfl
  | cons b t ih => simp [bi, ih]; omega

@[simp] theorem length_frameOf {n : Nat} (v : BitVec n) : (frameOf v).length = 2 + 2 * n := by
  simp only [frameOf, List.length_append, length_flatMap_bi, length_bitsMsb]; rfl

@[simp] theorem length_pack (s : List Sym) : (pack s).length = s.length := by simp [pack]

/-- Packing is undone byte by byte (R96, R134). -/
theorem unpack_pack (s : List Sym) : unpack (pack s) = some s := by
  induction s with
  | nil => rfl
  | cons b t ih =>
    have h : unpack (pack (b :: t)) = (unpack (pack t)).map (b :: ·) := by cases b <;> rfl
    rw [h, ih]; rfl

/-- The biphase code is undone pair by pair (R91, R134). -/
theorem unpair_flatMap_bi (l : List Bool) : unpair (l.flatMap bi) = some l := by
  induction l with
  | nil => rfl
  | cons b t ih => cases b <;> simp [bi, unpair, ih]

/-- A frame begins with the start pattern ⟨1,0⟩ (R92). -/
theorem frameOf_eq {n : Nat} (v : BitVec n) : frameOf v = true :: false :: (bitsMsb v).flatMap bi := rfl

theorem afterStart_frameOf {n : Nat} (v : BitVec n) : afterStart (frameOf v) = some (bitsMsb v) := by
  rw [frameOf_eq]; exact unpair_flatMap_bi _

/-- Reading a bit sequence from its most significant end. -/
theorem valueMsb_append (l : List Bool) (b : Bool) : valueMsb (l ++ [b]) = 2 * valueMsb l + b.toNat := by
  simp [valueMsb]

/-- A buffer classifies `NoResponse` exactly when every byte is idle (R132). -/
theorem classify_eq_noResponse_iff (x : List Byte) : classify x = .noResponse ↔ ∀ b ∈ x, b = idleByte := by
  unfold classify
  by_cases h : x.all (· == idleByte) = true
  · simp only [h, if_true, true_iff]; simpa [List.all_eq_true] using h
  · simp only [h, Bool.false_eq_true, if_false, reduceCtorEq, false_iff]
    simpa [List.all_eq_true] using h

theorem classify_eq_responded_iff (x : List Byte) : classify x = .responded ↔ ∃ b ∈ x, b ≠ idleByte := by
  rw [← not_iff_not, show (¬ classify x = .responded) ↔ classify x = .noResponse by cases classify x <;> simp,
    classify_eq_noResponse_iff]
  simp

/-- The symbols of a wired-AND of whole frames are as many as a backward frame has (R66). -/
theorem length_wiredAnd (fs : List (List Sym)) (h : ∀ f ∈ fs, f.length = bwdLen) : (wiredAnd fs).length = bwdLen := by
  induction fs with
  | nil => rfl
  | cons f t ih =>
    have ht := ih (fun g hg => h g (List.mem_cons_of_mem _ hg))
    have hf := h f List.mem_cons_self
    simp only [wiredAnd, List.foldr_cons, List.length_zipWith] at ht ⊢
    omega

end Sys2Proof.Machine
end

