-- ==== Sys2Proof/Laws/State.lean ====
section
/-! SUPPORT. Laws/State.lean: what each update of the state does to each field of it, each true by definition, so that no later
proof unfolds a record update. -/

namespace Sys2Proof.Machine

variable (s : State)

@[simp] theorem State.txWrite_phase (b : List Byte) : (s.txWrite b).phase = s.phase := rfl
@[simp] theorem State.txWrite_low (b : List Byte) : (s.txWrite b).low = s.low := rfl
@[simp] theorem State.txWrite_high (b : List Byte) : (s.txWrite b).high = s.high := rfl
@[simp] theorem State.txWrite_cand (b : List Byte) : (s.txWrite b).cand = s.cand := rfl
@[simp] theorem State.txWrite_assigned (b : List Byte) : (s.txWrite b).assigned = s.assigned := rfl
@[simp] theorem State.txWrite_scanix (b : List Byte) : (s.txWrite b).scanix = s.scanix := rfl
@[simp] theorem State.txWrite_occ (b : List Byte) : (s.txWrite b).occ = s.occ := rfl
@[simp] theorem State.txWrite_resp (b : List Byte) : (s.txWrite b).resp = s.resp := rfl
@[simp] theorem State.txWrite_status (b : List Byte) : (s.txWrite b).status = s.status := rfl
@[simp] theorem State.txWrite_errctx (b : List Byte) : (s.txWrite b).errctx = s.errctx := rfl
@[simp] theorem State.txWrite_result (b : List Byte) : (s.txWrite b).result = s.result := rfl
@[simp] theorem State.txWrite_cfg (b : List Byte) : (s.txWrite b).cfg = s.cfg := rfl
@[simp] theorem State.txWrite_requests (b : List Byte) : (s.txWrite b).requests = s.requests := rfl
@[simp] theorem State.txWrite_hostData (b : List Byte) : (s.txWrite b).hostData = s.hostData := rfl
@[simp] theorem State.txWrite_resetIn (b : List Byte) : (s.txWrite b).resetIn = s.resetIn := rfl
@[simp] theorem State.txWrite_env (b : List Byte) : (s.txWrite b).env = s.env.afterWrite s.cfg.cmd b := rfl
@[simp] theorem State.txWrite_trace (b : List Byte) : (s.txWrite b).trace = .write b s.env.nextWrite :: s.trace := rfl

@[simp] theorem State.txRead_phase (m : Nat) : (s.txRead m).phase = s.phase := rfl
@[simp] theorem State.txRead_low (m : Nat) : (s.txRead m).low = s.low := rfl
@[simp] theorem State.txRead_high (m : Nat) : (s.txRead m).high = s.high := rfl
@[simp] theorem State.txRead_cand (m : Nat) : (s.txRead m).cand = s.cand := rfl
@[simp] theorem State.txRead_assigned (m : Nat) : (s.txRead m).assigned = s.assigned := rfl
@[simp] theorem State.txRead_scanix (m : Nat) : (s.txRead m).scanix = s.scanix := rfl
@[simp] theorem State.txRead_occ (m : Nat) : (s.txRead m).occ = s.occ := rfl
@[simp] theorem State.txRead_resp (m : Nat) : (s.txRead m).resp = s.resp := rfl
@[simp] theorem State.txRead_status (m : Nat) : (s.txRead m).status = s.status := rfl
@[simp] theorem State.txRead_errctx (m : Nat) : (s.txRead m).errctx = s.errctx := rfl
@[simp] theorem State.txRead_result (m : Nat) : (s.txRead m).result = s.result := rfl
@[simp] theorem State.txRead_cfg (m : Nat) : (s.txRead m).cfg = s.cfg := rfl
@[simp] theorem State.txRead_requests (m : Nat) : (s.txRead m).requests = s.requests := rfl
@[simp] theorem State.txRead_hostData (m : Nat) : (s.txRead m).hostData = s.hostData := rfl
@[simp] theorem State.txRead_resetIn (m : Nat) : (s.txRead m).resetIn = s.resetIn := rfl
@[simp] theorem State.txRead_env (m : Nat) : (s.txRead m).env = s.env.afterRead := rfl
@[simp] theorem State.txRead_trace (m : Nat) : (s.txRead m).trace = .read m (s.env.nextRead m) :: s.trace := rfl

@[simp] theorem State.settle_phase : (s.settle).phase = s.phase := rfl
@[simp] theorem State.settle_low : (s.settle).low = s.low := rfl
@[simp] theorem State.settle_high : (s.settle).high = s.high := rfl
@[simp] theorem State.settle_cand : (s.settle).cand = s.cand := rfl
@[simp] theorem State.settle_assigned : (s.settle).assigned = s.assigned := rfl
@[simp] theorem State.settle_scanix : (s.settle).scanix = s.scanix := rfl
@[simp] theorem State.settle_occ : (s.settle).occ = s.occ := rfl
@[simp] theorem State.settle_resp : (s.settle).resp = s.resp := rfl
@[simp] theorem State.settle_status : (s.settle).status = s.status := rfl
@[simp] theorem State.settle_errctx : (s.settle).errctx = s.errctx := rfl
@[simp] theorem State.settle_result : (s.settle).result = s.result := rfl
@[simp] theorem State.settle_cfg : (s.settle).cfg = s.cfg := rfl
@[simp] theorem State.settle_requests : (s.settle).requests = s.requests := rfl
@[simp] theorem State.settle_hostData : (s.settle).hostData = s.hostData := rfl
@[simp] theorem State.settle_resetIn : (s.settle).resetIn = s.resetIn := rfl
@[simp] theorem State.settle_env : (s.settle).env = s.env := rfl
@[simp] theorem State.settle_trace : (s.settle).trace = .settle :: s.trace := rfl

@[simp] theorem State.goto_phase (p : Phase) : (s.goto p).phase = p := rfl
@[simp] theorem State.goto_low (p : Phase) : (s.goto p).low = s.low := rfl
@[simp] theorem State.goto_high (p : Phase) : (s.goto p).high = s.high := rfl
@[simp] theorem State.goto_cand (p : Phase) : (s.goto p).cand = s.cand := rfl
@[simp] theorem State.goto_assigned (p : Phase) : (s.goto p).assigned = s.assigned := rfl
@[simp] theorem State.goto_scanix (p : Phase) : (s.goto p).scanix = s.scanix := rfl
@[simp] theorem State.goto_occ (p : Phase) : (s.goto p).occ = s.occ := rfl
@[simp] theorem State.goto_resp (p : Phase) : (s.goto p).resp = s.resp := rfl
@[simp] theorem State.goto_status (p : Phase) : (s.goto p).status = s.status := rfl
@[simp] theorem State.goto_errctx (p : Phase) : (s.goto p).errctx = s.errctx := rfl
@[simp] theorem State.goto_result (p : Phase) : (s.goto p).result = s.result := rfl
@[simp] theorem State.goto_cfg (p : Phase) : (s.goto p).cfg = s.cfg := rfl
@[simp] theorem State.goto_requests (p : Phase) : (s.goto p).requests = s.requests := rfl
@[simp] theorem State.goto_hostData (p : Phase) : (s.goto p).hostData = s.hostData := rfl
@[simp] theorem State.goto_resetIn (p : Phase) : (s.goto p).resetIn = s.resetIn := rfl
@[simp] theorem State.goto_env (p : Phase) : (s.goto p).env = s.env := rfl
@[simp] theorem State.goto_trace (p : Phase) : (s.goto p).trace = s.trace := rfl

@[simp] theorem State.finish_phase (r : Result) : (s.finish r).phase = .idle := rfl
@[simp] theorem State.finish_low (r : Result) : (s.finish r).low = s.low := rfl
@[simp] theorem State.finish_high (r : Result) : (s.finish r).high = s.high := rfl
@[simp] theorem State.finish_cand (r : Result) : (s.finish r).cand = s.cand := rfl
@[simp] theorem State.finish_assigned (r : Result) : (s.finish r).assigned = s.assigned := rfl
@[simp] theorem State.finish_scanix (r : Result) : (s.finish r).scanix = s.scanix := rfl
@[simp] theorem State.finish_occ (r : Result) : (s.finish r).occ = s.occ := rfl
@[simp] theorem State.finish_resp (r : Result) : (s.finish r).resp = s.resp := rfl
@[simp] theorem State.finish_status (r : Result) : (s.finish r).status = .ok := rfl
@[simp] theorem State.finish_errctx (r : Result) : (s.finish r).errctx = s.errctx := rfl
@[simp] theorem State.finish_result (r : Result) : (s.finish r).result = some r := rfl
@[simp] theorem State.finish_cfg (r : Result) : (s.finish r).cfg = s.cfg := rfl
@[simp] theorem State.finish_requests (r : Result) : (s.finish r).requests = s.requests := rfl
@[simp] theorem State.finish_hostData (r : Result) : (s.finish r).hostData = s.hostData := rfl
@[simp] theorem State.finish_resetIn (r : Result) : (s.finish r).resetIn = s.resetIn := rfl
@[simp] theorem State.finish_env (r : Result) : (s.finish r).env = s.env := rfl
@[simp] theorem State.finish_trace (r : Result) : (s.finish r).trace = .returned r :: s.trace := rfl

@[simp] theorem State.raise_phase (op : HostOp) (e : ErrCode) : (s.raise op e).phase = .idle := rfl
@[simp] theorem State.raise_low (op : HostOp) (e : ErrCode) : (s.raise op e).low = s.low := rfl
@[simp] theorem State.raise_high (op : HostOp) (e : ErrCode) : (s.raise op e).high = s.high := rfl
@[simp] theorem State.raise_cand (op : HostOp) (e : ErrCode) : (s.raise op e).cand = s.cand := rfl
@[simp] theorem State.raise_assigned (op : HostOp) (e : ErrCode) : (s.raise op e).assigned = s.assigned := rfl
@[simp] theorem State.raise_scanix (op : HostOp) (e : ErrCode) : (s.raise op e).scanix = s.scanix := rfl
@[simp] theorem State.raise_occ (op : HostOp) (e : ErrCode) : (s.raise op e).occ = s.occ := rfl
@[simp] theorem State.raise_resp (op : HostOp) (e : ErrCode) : (s.raise op e).resp = s.resp := rfl
@[simp] theorem State.raise_status (op : HostOp) (e : ErrCode) : (s.raise op e).status = e := rfl
@[simp] theorem State.raise_errctx (op : HostOp) (e : ErrCode) : (s.raise op e).errctx = some (s.context op) := rfl
@[simp] theorem State.raise_result (op : HostOp) (e : ErrCode) : (s.raise op e).result = s.result := rfl
@[simp] theorem State.raise_cfg (op : HostOp) (e : ErrCode) : (s.raise op e).cfg = s.cfg := rfl
@[simp] theorem State.raise_requests (op : HostOp) (e : ErrCode) : (s.raise op e).requests = s.requests := rfl
@[simp] theorem State.raise_hostData (op : HostOp) (e : ErrCode) : (s.raise op e).hostData = s.hostData := rfl
@[simp] theorem State.raise_resetIn (op : HostOp) (e : ErrCode) : (s.raise op e).resetIn = s.resetIn := rfl
@[simp] theorem State.raise_env (op : HostOp) (e : ErrCode) : (s.raise op e).env =
    if e = .transportReadTimeout then s.env else s.env.cut s.phase := rfl
@[simp] theorem State.raise_trace (op : HostOp) (e : ErrCode) : (s.raise op e).trace = .failed e :: s.trace := rfl

@[simp] theorem State.blockReset_phase : (s.blockReset).phase = .idle := rfl
@[simp] theorem State.blockReset_low : (s.blockReset).low = 0 := rfl
@[simp] theorem State.blockReset_high : (s.blockReset).high = 0 := rfl
@[simp] theorem State.blockReset_cand : (s.blockReset).cand = 0 := rfl
@[simp] theorem State.blockReset_assigned : (s.blockReset).assigned = 0 := rfl
@[simp] theorem State.blockReset_scanix : (s.blockReset).scanix = 0 := rfl
@[simp] theorem State.blockReset_occ : (s.blockReset).occ = 0 := rfl
@[simp] theorem State.blockReset_resp : (s.blockReset).resp = .noResponse := rfl
@[simp] theorem State.blockReset_status : (s.blockReset).status = .ok := rfl
@[simp] theorem State.blockReset_errctx : (s.blockReset).errctx = none := rfl
@[simp] theorem State.blockReset_result : (s.blockReset).result = none := rfl
@[simp] theorem State.blockReset_cfg : (s.blockReset).cfg = s.cfg := rfl
@[simp] theorem State.blockReset_requests : (s.blockReset).requests = s.requests := rfl
@[simp] theorem State.blockReset_hostData : (s.blockReset).hostData = [] := rfl
@[simp] theorem State.blockReset_resetIn : (s.blockReset).resetIn = none := rfl
@[simp] theorem State.blockReset_env : (s.blockReset).env = s.env.cut s.phase := rfl
@[simp] theorem State.blockReset_trace : (s.blockReset).trace = s.trace := rfl

end Sys2Proof.Machine
end

