-- ==== Sys2Proof/Laws/Ops.lean ====
section
/-! SUPPORT. Laws/Ops.lean: for each shared operation, once, what it can do: the transport calls, the issuing steps, and the
meaning of every bus frame. -/

namespace Sys2Proof.Machine

/-- A write is complete exactly when the transport took all 34 bytes (R51). -/
theorem writeComplete_iff (o : WriteOutcome) : writeComplete o = true ↔ o = .written 34 := by
  cases o with
  | fail => simp [writeComplete]
  | written n => simp [writeComplete, fwdLen, Fin.ext_iff]

theorem writeComplete_eq_false_iff (o : WriteOutcome) : writeComplete o = false ↔ o ≠ .written 34 := by
  rw [← Bool.not_eq_true, writeComplete_iff]

/-- A host operation answers a next state exactly when the block is idle. -/
theorem whenIdle_of_idle {s t : State} (h : s.phase = .idle) : whenIdle s t = .next t := if_pos h

theorem whenIdle_of_busy {s t : State} (h : s.phase ≠ .idle) : whenIdle s t = .refused .busy := if_neg h

/-- ISSUE's effect: a result after a complete write, the write error after any other (R150). -/
theorem issueFrame_cases (a c : Byte) (s : State) :
    (s.env.nextWrite = .written 34 ∧ s.issueFrame a c = (s.txWrite (pack (fwd a c))).finish .unit) ∨
    (s.env.nextWrite ≠ .written 34 ∧
      s.issueFrame a c = (s.txWrite (pack (fwd a c))).raise .issue .transportWriteError) := by
  by_cases h : s.env.nextWrite = .written 34
  · exact .inl ⟨h, by simp [State.issueFrame, (writeComplete_iff _).2 h]⟩
  · exact .inr ⟨h, by simp [State.issueFrame, (writeComplete_eq_false_iff _).2 h]⟩

/-- An issuing step: one settle and the step's updates after a complete write, the write error after any other (R152). -/
theorem sendFrame_cases (op : HostOp) (a c : Byte) (s : State) :
    (s.env.nextWrite = .written 34 ∧ s.sendFrame op a c = (s.txWrite (pack (fwd a c))).settle.advance) ∨
    (s.env.nextWrite ≠ .written 34 ∧
      s.sendFrame op a c = (s.txWrite (pack (fwd a c))).raise op .transportWriteError) := by
  by_cases h : s.env.nextWrite = .written 34
  · exact .inl ⟨h, by simp [State.sendFrame, (writeComplete_iff _).2 h]⟩
  · exact .inr ⟨h, by simp [State.sendFrame, (writeComplete_eq_false_iff _).2 h]⟩

/-- The meaning of every bus frame is its pair, placed on the bus (R154 to R168). -/
theorem exec_frame {i : Instr} {a c : Byte} {s : State} (h : framePair s.cfg.cmd i = some (a, c)) :
    exec i s = .next (s.busFrame a c) := by
  cases i <;> simp only [framePair, Option.some.injEq, Prod.mk.injEq, reduceCtorEq] at h <;>
    obtain ⟨rfl, rfl⟩ := h <;> rfl

theorem busFrame_of_op {s : State} {op : HostOp} (a c : Byte) (h : s.phase.op = some op) :
    s.busFrame a c = s.sendFrame op a c := by simp [State.busFrame, h]

theorem busFrame_of_idle {s : State} (a c : Byte) (h : s.phase = .idle) : s.busFrame a c = s.issueFrame a c := by
  simp [State.busFrame, h, Phase.op]

theorem Phase.op_eq_none_iff (p : Phase) : p.op = none ↔ p = .idle := by cases p <;> simp [Phase.op]

/-- An encoded frame is its pair, address byte first (R93). -/
theorem encode_frame {cmd : Cmd} {i : Instr} {a c : Byte} (h : framePair cmd i = some (a, c)) :
    encode cmd i = .frame (a ++ c) := by
  cases i <;> simp only [framePair, Option.some.injEq, Prod.mk.injEq, reduceCtorEq] at h <;>
    obtain ⟨rfl, rfl⟩ := h <;> rfl

/-- A bus frame inside a sequence, written whole: the write, one settle and the step's updates (R152). -/
theorem exec_frame_written {i : Instr} {a c : Byte} {s : State} {op : HostOp} (h : framePair s.cfg.cmd i = some (a, c))
    (hop : s.phase.op = some op) (hw : s.env.nextWrite = .written 34) :
    exec i s = .next ((s.txWrite (pack (fwd a c))).settle.advance) := by
  rw [exec_frame h, busFrame_of_op _ _ hop]
  rcases sendFrame_cases op a c s with ⟨_, hh⟩ | ⟨hn, _⟩
  · rw [hh]
  · exact absurd hw hn

/-- A scanner's probe answers `Responded` exactly when a byte that is not idle came (R132, R153). -/
theorem probeScan_eq_responded_iff (o : ReadOutcome) :
    probeScan o = .responded ↔ ∃ x, o = .bytes x ∧ classify x = .responded := by
  rcases o with (_ | ⟨b, t⟩) | _ | _
  · simp [probeScan, classify]
  · simp [probeScan]
  · simp [probeScan]
  · simp [probeScan]

/-- `advance` depends on the registers alone and touches no input. -/
@[simp] theorem advance_cfg (s : State) : s.advance.cfg = s.cfg := by unfold State.advance; split <;> rfl
@[simp] theorem advance_env (s : State) : s.advance.env = s.env := by unfold State.advance; split <;> rfl
@[simp] theorem advance_requests (s : State) : s.advance.requests = s.requests := by
  unfold State.advance; split <;> rfl
@[simp] theorem advance_hostData (s : State) : s.advance.hostData = s.hostData := by
  unfold State.advance; split <;> rfl
@[simp] theorem advance_resetIn (s : State) : s.advance.resetIn = s.resetIn := by unfold State.advance; split <;> rfl
@[simp] theorem advance_low (s : State) : s.advance.low = s.low := by unfold State.advance; split <;> rfl
@[simp] theorem advance_high (s : State) : s.advance.high = s.high := by unfold State.advance; split <;> rfl
@[simp] theorem advance_cand (s : State) : s.advance.cand = s.cand := by unfold State.advance; split <;> rfl
@[simp] theorem advance_occ (s : State) : s.advance.occ = s.occ := by unfold State.advance; split <;> rfl
@[simp] theorem advance_resp (s : State) : s.advance.resp = s.resp := by unfold State.advance; split <;> rfl
@[simp] theorem advance_errctx (s : State) : s.advance.errctx = s.errctx := by unfold State.advance; split <;> rfl

/-- The phases whose step sends a frame (R191, R212). -/
def Phase.sends : Phase → Bool
  | .idle | .scAwait | .cmPass | .cmTest | .cmAwait | .cmCheck => false
  | _ => true

end Sys2Proof.Machine
end

