-- ==== Sys2Proof/Laws/PerInstr.lean ====
section
/-! SUPPORT. Laws/PerInstr.lean: one statement about every instruction as syntax. TableRow: the code of the instruction, with the
default command record, has the fixed bits that its row of spec/opcode_table.json gives (30_encoding.md rules R107 and R113). -/

namespace Sys2Proof.Laws

/-- The code is a host request word whose bits under the mask are those of the match. -/
def requestMatches (mask val : BitVec 19) : Code → Prop
  | .request w => w &&& mask = val
  | .frame _   => False

/-- The code is a frame pair whose bits under the mask are those of the match. -/
def frameMatches (mask val : BitVec 16) : Code → Prop
  | .request _ => False
  | .frame w   => w &&& mask = val

/-- The mask and match of the instruction's row in spec/opcode_table.json. -/
def TableRow.Statement (i : Instr) : Prop :=
  match i with
  | .encode _ _     => requestMatches 0x70000 0x00000 (encode Cmd.default i)
  | .classify       => requestMatches 0x7FFFF 0x10000 (encode Cmd.default i)
  | .decode _       => requestMatches 0x70000 0x20000 (encode Cmd.default i)
  | .issue _ _      => requestMatches 0x70000 0x30000 (encode Cmd.default i)
  | .await          => requestMatches 0x7FFFF 0x40000 (encode Cmd.default i)
  | .scan           => requestMatches 0x7FFFF 0x50000 (encode Cmd.default i)
  | .commission     => requestMatches 0x7FFFF 0x60000 (encode Cmd.default i)
  | .reservedOp7 _  => requestMatches 0x70000 0x70000 (encode Cmd.default i)
  | .bcReset        => frameMatches 0xFFFF 0xFF20 (encode Cmd.default i)
  | .bcOff          => frameMatches 0xFFFF 0xFF00 (encode Cmd.default i)
  | .bcOn           => frameMatches 0xFFFF 0xFF05 (encode Cmd.default i)
  | .initialise     => frameMatches 0xFFFF 0xA5FF (encode Cmd.default i)
  | .randomise      => frameMatches 0xFFFF 0xA700 (encode Cmd.default i)
  | .searchaddrh _  => frameMatches 0xFF00 0xB100 (encode Cmd.default i)
  | .searchaddrm _  => frameMatches 0xFF00 0xB300 (encode Cmd.default i)
  | .searchaddrl _  => frameMatches 0xFF00 0xB500 (encode Cmd.default i)
  | .compare        => frameMatches 0xFFFF 0xA900 (encode Cmd.default i)
  | .programShort _ => frameMatches 0xFF81 0xB701 (encode Cmd.default i)
  | .withdraw       => frameMatches 0xFFFF 0xAB00 (encode Cmd.default i)
  | .terminate      => frameMatches 0xFFFF 0xA100 (encode Cmd.default i)
  | .queryStatus _  => frameMatches 0x81FF 0x0190 (encode Cmd.default i)
  | .saOn _         => frameMatches 0x81FF 0x0105 (encode Cmd.default i)
  | .saOff _        => frameMatches 0x81FF 0x0100 (encode Cmd.default i)

/-- The operation code of a host request word. -/
theorem requestWord_op (op : BitVec 3) (a c : Byte) : requestWord op a c &&& 0x70000 = op ++ (0 : Byte) ++ (0 : Byte) := by
  apply BitVec.eq_of_getLsbD_eq
  intro j hj
  simp only [requestWord, BitVec.getLsbD_and, BitVec.getLsbD_append]
  interval_cases j <;> simp

/-- The address byte of a frame pair. -/
theorem pair_address (a c : Byte) : (a ++ c : BitVec 16) &&& 0xFF00 = a ++ (0 : Byte) := by
  apply BitVec.eq_of_getLsbD_eq
  intro j hj
  simp only [BitVec.getLsbD_and, BitVec.getLsbD_append]
  interval_cases j <;> simp

/-- The reserved operation code. -/
theorem reserved_op (x : BitVec 16) : (7#3 ++ x : BitVec 19) &&& 0x70000 = 0x70000 := by
  apply BitVec.eq_of_getLsbD_eq
  intro j hj
  simp only [BitVec.getLsbD_and, BitVec.getLsbD_append]
  interval_cases j <;> simp

/-- The fixed bits of the short-address frames. -/
theorem programShort_row : ∀ k : ShortAddr, (0xB7#8 ++ tok k : BitVec 16) &&& 0xFF81 = 0xB701 := by decide
theorem queryStatus_row : ∀ k : ShortAddr, (sa k ++ 0x90#8 : BitVec 16) &&& 0x81FF = 0x0190 := by decide
theorem saOn_row : ∀ k : ShortAddr, (sa k ++ 0x05#8 : BitVec 16) &&& 0x81FF = 0x0105 := by decide
theorem saOff_row : ∀ k : ShortAddr, (sa k ++ 0x00#8 : BitVec 16) &&& 0x81FF = 0x0100 := by decide

theorem TableRow.encode (a c : Byte) : TableRow.Statement (.encode a c) := requestWord_op 0 a c
theorem TableRow.classify : TableRow.Statement (.classify) := rfl
theorem TableRow.decode (n : Byte) : TableRow.Statement (.decode n) := requestWord_op 2 0 n
theorem TableRow.issue (a c : Byte) : TableRow.Statement (.issue a c) := requestWord_op 3 a c
theorem TableRow.await : TableRow.Statement (.await) := rfl
theorem TableRow.scan : TableRow.Statement (.scan) := rfl
theorem TableRow.commission : TableRow.Statement (.commission) := rfl
theorem TableRow.reservedOp7 (x : BitVec 16) : TableRow.Statement (.reservedOp7 x) := reserved_op x
theorem TableRow.bcReset : TableRow.Statement (.bcReset) := rfl
theorem TableRow.bcOff : TableRow.Statement (.bcOff) := rfl
theorem TableRow.bcOn : TableRow.Statement (.bcOn) := rfl
theorem TableRow.initialise : TableRow.Statement (.initialise) := rfl
theorem TableRow.randomise : TableRow.Statement (.randomise) := rfl
theorem TableRow.searchaddrh (v : Byte) : TableRow.Statement (.searchaddrh v) := pair_address 0xB1 v
theorem TableRow.searchaddrm (v : Byte) : TableRow.Statement (.searchaddrm v) := pair_address 0xB3 v
theorem TableRow.searchaddrl (v : Byte) : TableRow.Statement (.searchaddrl v) := pair_address 0xB5 v
theorem TableRow.compare : TableRow.Statement (.compare) := rfl
theorem TableRow.programShort (k : ShortAddr) : TableRow.Statement (.programShort k) := programShort_row k
theorem TableRow.withdraw : TableRow.Statement (.withdraw) := rfl
theorem TableRow.terminate : TableRow.Statement (.terminate) := rfl
theorem TableRow.queryStatus (k : ShortAddr) : TableRow.Statement (.queryStatus k) := queryStatus_row k
theorem TableRow.saOn (k : ShortAddr) : TableRow.Statement (.saOn k) := saOn_row k
theorem TableRow.saOff (k : ShortAddr) : TableRow.Statement (.saOff k) := saOff_row k

end Sys2Proof.Laws
end

