-- ==== Sys2Proof/Laws/Step.lean ====
section
/-! SUPPORT. Laws/Step.lean: what a step can do, said once: the reset input first, then the request of an idle block, the frame of
an issuing phase, or the phase's own update. -/

namespace Sys2Proof.Machine

theorem fetch_of_no_reset {s : State} (h : s.resetIn = none) : fetch s = fetchPhase s := by simp [fetch, h]

theorem step_of_run {s t : State} {i : Instr} (h : fetch s = .run i t) : step s = exec i t := by simp [step, h]

theorem step_of_internal {s t : State} (h : fetch s = .internal t) : step s = .next t := by simp [step, h]

/-- An issuing phase fetches a frame and leaves the state alone. -/
theorem fetchPhase_frame {s : State} (hs : s.phase.sends = true) (hq : s.phase = .scQ → s.scanix ≠ 64) :
    ∃ i a c, fetchPhase s = .run i s ∧ framePair s.cfg.cmd i = some (a, c) := by
  cases hp : s.phase <;> simp only [hp, Phase.sends, Bool.false_eq_true] at hs <;>
    simp only [fetchPhase, hp, nShort, Fetched.run.injEq, and_true]
  case scQ => exact ⟨_, _, _, if_neg (hq hp), rfl⟩
  all_goals exact ⟨_, _, _, rfl, rfl⟩

/-- An issuing phase's step is `Send` of its frame and the step's own updates. -/
theorem step_frame {s : State} (hr : s.resetIn = none) (hs : s.phase.sends = true) (hq : s.phase = .scQ → s.scanix ≠ 64) :
    ∃ op a c, s.phase.op = some op ∧ step s = .next (s.sendFrame op a c) := by
  obtain ⟨i, a, c, hf, hp⟩ := fetchPhase_frame hs hq
  have hop : ∃ op, s.phase.op = some op := by
    cases h : s.phase <;> simp_all [Phase.sends, Phase.op]
  obtain ⟨op, hop⟩ := hop
  exact ⟨op, a, c, hop, by rw [step_of_run ((fetch_of_no_reset hr).trans hf), exec_frame hp, busFrame_of_op _ _ hop]⟩

/-- The step of a phase that sends no frame is the phase's own update. -/
theorem step_quiet {s : State} (hr : s.resetIn = none) :
    (s.phase = .scAwait → step s = .next s.scanAwait) ∧ (s.phase = .cmPass → step s = .next s.passStart) ∧
    (s.phase = .cmTest → step s = .next s.searchTest) ∧ (s.phase = .cmAwait → step s = .next s.compareAwait) ∧
    (s.phase = .cmCheck → step s = .next s.passCheck) ∧
    (s.phase = .scQ → s.scanix = 64 → step s = .next s.scanDone) := by
  refine ⟨?_, ?_, ?_, ?_, ?_, ?_⟩ <;> intro hp <;> try intro hq
  all_goals exact step_of_internal (by rw [fetch_of_no_reset hr]; simp [fetchPhase, nShort, *])

/-- What one step of a sequence can be, when no reset is due: a frame sent, or the update of the phase that sends none. -/
theorem step_cases {s t : State} (hr : s.resetIn = none) (hp : s.phase ≠ .idle) (h : step s = .next t) :
    (∃ op a c, s.phase.op = some op ∧ s.phase.sends = true ∧ (s.phase = .scQ → s.scanix ≠ 64) ∧ t = s.sendFrame op a c) ∨
    (s.phase = .scAwait ∧ t = s.scanAwait) ∨ (s.phase = .cmPass ∧ t = s.passStart) ∨
    (s.phase = .cmTest ∧ t = s.searchTest) ∨ (s.phase = .cmAwait ∧ t = s.compareAwait) ∨
    (s.phase = .cmCheck ∧ t = s.passCheck) ∨ (s.phase = .scQ ∧ s.scanix = 64 ∧ t = s.scanDone) := by
  obtain ⟨q1, q2, q3, q4, q5, q6⟩ := step_quiet hr
  by_cases hs : s.phase.sends = true
  · by_cases hq : s.phase = .scQ ∧ s.scanix = 64
    · rw [q6 hq.1 hq.2] at h; cases h; simp [hq]
    · obtain ⟨op, a, c, ho, hh⟩ := step_frame hr hs (fun h1 h2 => hq ⟨h1, h2⟩)
      rw [hh] at h; cases h
      exact .inl ⟨op, a, c, ho, hs, fun h1 h2 => hq ⟨h1, h2⟩, rfl⟩
  · cases hph : s.phase <;> simp only [hph, Phase.sends, not_true_eq_false, ne_eq] at hs hp
    · rw [q1 hph] at h; cases h; simp
    · rw [q2 hph] at h; cases h; simp
    · rw [q3 hph] at h; cases h; simp
    · rw [q4 hph] at h; cases h; simp
    · rw [q5 hph] at h; cases h; simp

end Sys2Proof.Machine
end

