-- ==== Sys2Proof/Machine/Pseudo.lean ====
section
/-! DEFINITION. Machine/Pseudo.lean: the assembler's pseudo-operations, each an expansion into host requests (30_encoding.md rules
R112 to R114). They are no instructions of the block: the host sends the requests one after the other, with no settle between
them. -/

namespace Sys2Proof.Machine

/-- `ISSUE <frame>` (R112): the host request word that puts a bus frame on the bus; none for a host request. -/
def issueWord (cmd : Cmd) (i : Instr) : Option (BitVec 19) := (framePair cmd i).map (fun p => requestWord 3 p.1 p.2)

/-- The pseudo-operations (R114). -/
inductive Pseudo where
  /-- `SEARCHADDR v24`. -/
  | searchaddr (v : U24)
  /-- `TWICE <frame>`. -/
  | twice (i : Instr)
  /-- `TOGGLE k`. -/
  | toggle (k : ShortAddr)
  /-- `PROBE`. -/
  | probe
  deriving DecidableEq, Repr

/-- The host request words a pseudo-operation stands for (R114); `TWICE` of what is no bus frame stands for none. -/
def expandPseudo (cmd : Cmd) : Pseudo → List (BitVec 19)
  | .searchaddr v => [requestWord 3 cmd.searchaddrh (highByte v), requestWord 3 cmd.searchaddrm (midByte v),
      requestWord 3 cmd.searchaddrl (lowByte v)]
  | .twice i      => (issueWord cmd i).toList ++ (issueWord cmd i).toList
  | .toggle k     => [requestWord 3 (sa k) cmd.on, requestWord 3 (sa k) cmd.off]
  | .probe        => [requestWord 3 cmd.compare cmd.nodata, requestWord 4 0 0]

end Sys2Proof.Machine
end

