-- ==== Sys2Proof/Tests/Slice0.lean ====
section
/-! SUPPORT. Tests/Slice0.lean: the smoke tests of WellFormed and Decode, one-step tests of the meanings against the vectors of
spec/95_test_vectors.md and the rules' own examples, and for every statement with hypotheses a witness that meets them. -/

namespace Sys2Proof.Tests

open Sys2Proof Sys2Proof.Machine

/-- The state after reset at another phase. -/
def on (p : Phase) : State := { State.reset with phase := p }

/-- A state whose next write takes all 34 bytes. -/
def writing (p : Phase) (o : WriteOutcome := .written 34) : State :=
  { State.reset with phase := p, env := { writes := [some o], reads := [], bus := none, draws := 0 } }

/-- A state whose next read answers as listed. -/
def reading (p : Phase) (o : ReadOutcome) : State :=
  { State.reset with phase := p, env := { writes := [], reads := [some o], bus := none, draws := 0 } }

/-- An idle block with bytes on the host data input. -/
def given (x : List Byte) : State := { State.reset with hostData := x }

/-- An idle block with a request on the host port. -/
def asked (w : BitVec 19) (x : List Byte := []) : State := { State.reset with requests := [{ word := w, data := x }] }

/-- A search window at `CM_TEST`, `CM_CHECK` or `CM_AWAIT`. -/
def window (s : State) (low high cand : U24) : State := { s with low := low, high := high, cand := cand }

/-- An unbound device of the reference bus that will draw `long` twice. -/
def device (long : U24) : Slave :=
  { long := 0, short := none, init := false, wd := false, sr := 0, lamp := false, rand := [long, long] }

/-- A reference bus with these devices. -/
def busOf (ds : List Slave) : Bus := { slaves := ds, seq := .idle, search := .closed, reply := none }

/-- A block at a phase on the reference bus. -/
def onBus (p : Phase) (b : Bus) : State :=
  { State.reset with phase := p, env := { writes := [], reads := [], bus := some b, draws := 0 } }

/-- Does the outcome hold a next state with this property? -/
def nextHas (o : Host.Outcome State Fault Refusal) (f : State → Bool) : Bool :=
  match o with
  | .next t    => f t
  | .fault _   => false
  | .refused _ => false

/-- The refusal of an outcome. -/
def refusalOf (o : Host.Outcome State Fault Refusal) : Option Refusal :=
  match o with
  | .next _    => none
  | .fault _   => none
  | .refused r => some r

/-! ### Well-formedness -/

/-- H11: DECODE 9 is refused (R108). -/
theorem test_wf_decode_width : Instr.wf (.decode 9) = false := by decide

/-- H3, H4. -/
theorem test_wf_decode_widths : Instr.wf (.decode 8) = true ∧ Instr.wf (.decode 16) = true := by decide

/-- H9: op 7 is refused (R108). -/
theorem test_wf_reserved : Instr.wf (.reservedOp7 0) = false := by decide

/-- R100: the default command record keeps the frames apart. -/
theorem test_cmd_default_distinct : Cmd.default.distinct = true := by decide

/-- COMPARE and WITHDRAW under one address byte are refused. -/
theorem test_cmd_clash_address : ({ Cmd.default with compare := 0xAB } : Cmd).distinct = false := by decide

/-- A special address byte of the short-address form of R99 is refused. -/
theorem test_cmd_clash_short_form : ({ Cmd.default with terminate := 0x41 } : Cmd).distinct = false := by decide

/-- ON and RESET under one command byte are refused. -/
theorem test_cmd_clash_command : ({ Cmd.default with on := 0x20 } : Cmd).distinct = false := by decide

/-- QUERY_STATUS and OFF under one command byte are refused. -/
theorem test_cmd_clash_query : ({ Cmd.default with queryStatus := 0x00 } : Cmd).distinct = false := by decide

/-! ### Decoding: words written out from R106, R107 (op, a, c) and R113, R115 (address byte, command byte) -/

theorem test_word_encode : decodeTableWord 24 0b0000000000100000101 = some (.encode 0x01 0x05) := by decide

theorem test_word_classify : decodeTableWord 24 0b0010000000000000000 = some (.classify) := by decide

theorem test_word_decode : decodeTableWord 24 0b0100000000000010000 = some (.decode 16) := by decide

theorem test_word_issue : decodeTableWord 24 0b0111111111100100000 = some (.issue 0xFF 0x20) := by decide

theorem test_word_await : decodeTableWord 24 0b1000000000000000000 = some (.await) := by decide

theorem test_word_scan : decodeTableWord 24 0b1010000000000000000 = some (.scan) := by decide

theorem test_word_commission : decodeTableWord 24 0b1100000000000000000 = some (.commission) := by decide

theorem test_word_reserved : decodeTableWord 24 0b1110000000000000001 = some (.reservedOp7 1) := by decide

theorem test_word_bcReset : decodeTableWord 16 0xFF20 = some (.bcReset) := by decide

theorem test_word_bcOff : decodeTableWord 16 0xFF00 = some (.bcOff) := by decide

theorem test_word_bcOn : decodeTableWord 16 0xFF05 = some (.bcOn) := by decide

theorem test_word_initialise : decodeTableWord 16 0xA5FF = some (.initialise) := by decide

theorem test_word_randomise : decodeTableWord 16 0xA700 = some (.randomise) := by decide

theorem test_word_searchaddrh : decodeTableWord 16 0xB17F = some (.searchaddrh 0x7F) := by decide

theorem test_word_searchaddrm : decodeTableWord 16 0xB3FF = some (.searchaddrm 0xFF) := by decide

theorem test_word_searchaddrl : decodeTableWord 16 0xB5FE = some (.searchaddrl 0xFE) := by decide

theorem test_word_compare : decodeTableWord 16 0xA900 = some (.compare) := by decide

theorem test_word_programShort : decodeTableWord 16 0b1011011101111111 = some (.programShort 63) := by decide

theorem test_word_withdraw : decodeTableWord 16 0xAB00 = some (.withdraw) := by decide

theorem test_word_terminate : decodeTableWord 16 0xA100 = some (.terminate) := by decide

theorem test_word_queryStatus : decodeTableWord 16 0b0000011110010000 = some (.queryStatus 3) := by decide

theorem test_word_saOn : decodeTableWord 16 0b0000111100000101 = some (.saOn 7) := by decide

theorem test_word_saOff : decodeTableWord 16 0b0000111100000000 = some (.saOff 7) := by decide

/-- H10. -/
theorem test_word_await_must_be_zero : decodeTableWord 24 0x40001 = none := by decide

/-- H12. -/
theorem test_word_classify_must_be_zero : decodeTableWord 24 0x1FF00 = none := by decide

/-- Data bytes that no frame of R113 has. -/
theorem test_word_no_frame : decodeTableWord 16 0xB780 = none ∧ decodeTableWord 16 0xA901 = none := by decide

/-- Bits above the 19 of a host request word. -/
theorem test_word_above : decodeTableWord 24 0x80000 = none := by decide

/-! ### Frames (vectors E1, E2, E4, E6, B4, B7, E7) and operands (A1 to A6) -/

theorem test_fwd_bc_reset : wordForm (fwd 0xFF 0x20) = 0x2AAAA5955 := by decide

theorem test_fwd_zero : wordForm (fwd 0x00 0x00) = 0x255555555 := by decide

theorem test_fwd_sa_on : wordForm (fwd 0x01 0x05) = 0x255565566 := by decide

theorem test_fwd_alternating : wordForm (fwd 0x55 0xAA) = 0x266669999 := by decide

theorem test_bwd : wordForm (bwd 0xA5) = 0x29966 := by decide

theorem test_collision : wordForm (wiredAnd [bwd 0xFF, bwd 0x0F]) = 0x200AA := by decide

theorem test_dead_encoder : wordForm (encDead 0xFF 0x20) = 0x200000000 := by decide

/-- B3. -/
theorem test_pack_bwd :
    pack (bwd 0x0F) =
      [0xFF, 0x00, 0x00, 0xFF, 0x00, 0xFF, 0x00, 0xFF, 0x00, 0xFF, 0xFF, 0x00, 0xFF, 0x00, 0xFF, 0x00, 0xFF, 0x00] := by decide

/-- A1, A2. -/
theorem test_tokens :
    [tok 0, tok 1, tok 2, tok 63] = [0x01, 0x03, 0x05, 0x7F] ∧ [sa 0, sa 3, sa 7, sa 63] = [0x01, 0x07, 0x0F, 0x7F] := by decide

/-- A3. -/
theorem test_split : [highByte 0x123456, midByte 0x123456, lowByte 0x123456] = [0x12, 0x34, 0x56] := by decide

/-- A5, A6. -/
theorem test_midpoint : windowMid 0 0xFFFFFF = 0x7FFFFF ∧ windowMid 0xFFFFFD 0xFFFFFF = 0xFFFFFE := by decide

/-- R114 (A3). -/
theorem test_pseudo_searchaddr :
    expandPseudo Cmd.default (.searchaddr 0x123456) = [0x3B112, 0x3B334, 0x3B556] := by decide

/-- R114. -/
theorem test_pseudo_probe :
    expandPseudo Cmd.default .probe = [0x3A900, 0x40000] ∧ expandPseudo Cmd.default (.twice .bcReset) = [0x3FF20, 0x3FF20] := by decide

/-! ### The host operations -/

/-- E4. -/
theorem test_encode :
    nextHas (exec (.encode 0x01 0x05) State.reset) (fun t => t.result == some (.frame (fwd 0x01 0x05)
      [0xFF, 0x00, 0x00, 0xFF, 0x00, 0xFF, 0x00, 0xFF, 0x00, 0xFF, 0x00, 0xFF, 0x00, 0xFF, 0x00, 0xFF, 0xFF, 0x00, 0x00, 0xFF,
       0x00, 0xFF, 0x00, 0xFF, 0x00, 0xFF, 0x00, 0xFF, 0xFF, 0x00, 0x00, 0xFF, 0xFF, 0x00])) = true := by decide

/-- H13. -/
theorem test_encode_busy : refusalOf (exec (.encode 0x00 0x00) (on .cmTest)) = some .busy := by decide

/-- K7. -/
theorem test_classify_noise :
    nextHas (exec .classify (given [0xFF, 0xFF, 0xFE, 0xFF])) (fun t => t.result == some (.classification .responded)) = true := by decide

/-- K2. -/
theorem test_classify_empty :
    nextHas (exec .classify (given [])) (fun t => t.result == some (.classification .noResponse)) = true := by decide

/-- D3. -/
theorem test_decode_bwd :
    nextHas (exec (.decode 8) (given (pack (bwd 0xA5)))) (fun t => t.result == some (.byte 0xA5)) = true := by decide

/-- D5. -/
theorem test_decode_collision :
    nextHas (exec (.decode 8) (given (pack (wiredAnd [bwd 0xFF, bwd 0x0F])))) (fun t => t.result == some .invalid) = true := by decide

/-- H11. -/
theorem test_decode_refused : refusalOf (step (asked 0x20009)) = some .decodeWidth := by decide

/-- I2. -/
theorem test_issue_short :
    nextHas (exec (.issue 0xFF 0x20) (writing .idle (.written 33)))
      (fun t => t.status == .transportWriteError && t.result == none && !t.trace.contains .settle) = true := by decide

/-- I1. -/
theorem test_issue_step :
    nextHas (step { asked 0x3FF20 with env := (writing .idle).env }) (fun t => t.result == some .unit && t.requests == []) = true := by decide

/-- I8. -/
theorem test_await_short :
    nextHas (exec .await (reading .idle (.bytes [0xFF]))) (fun t => t.result == some (.classification .noResponse)) = true := by decide

/-- I11. -/
theorem test_await_fail :
    nextHas (exec .await (reading .idle .fail)) (fun t => t.status == .transportReadError && t.errctx ==
      some { op := .await, phase := .idle, assigned := none, low := none, high := none, scanix := none }) = true := by decide

/-- H7, R192. -/
theorem test_scan_start :
    nextHas (step (asked 0x50000)) (fun t => t.phase == .scBoff && t.scanix == 0 && t.trace == []) = true := by decide

/-- H8, R213. -/
theorem test_commission_start :
    nextHas (step (asked 0x60000)) (fun t => t.phase == .cmReset1 && t.low == 0 && t.assigned == 0) = true := by decide

/-- H9. -/
theorem test_reserved : refusalOf (step (asked 0x70000)) = some .reservedOp := by decide

/-- H10. -/
theorem test_must_be_zero : refusalOf (step (asked 0x40001)) = some (.malformed .mustBeZero) := by decide

/-! ### The bus frames, each sent by its phase (R193 to R198, R214 to R230) as the word R115 gives -/

/-- R154, R214. -/
theorem test_bc_reset :
    nextHas (step (writing .cmReset1))
      (fun t => t.trace == [.settle, .write (pack (fwd 0xFF 0x20)) (.written 34)] && t.phase == .cmReset2) = true := by decide

/-- R155, R193. -/
theorem test_bc_off :
    nextHas (step (writing .scBoff))
      (fun t => t.trace == [.settle, .write (pack (fwd 0xFF 0x00)) (.written 34)] && t.phase == .scQ) = true := by decide

/-- R156, R198 (S9). -/
theorem test_bc_on :
    nextHas (step { writing .scBon with occ := 0x88 })
      (fun t => t.result == some (.mask 0x88) && t.phase == .idle && t.status == .ok) = true := by decide

/-- R156, R230 (P4). -/
theorem test_bc_on_commission :
    nextHas (step { writing .cmBon with assigned := 2 }) (fun t => t.result == some (.count 2)) = true := by decide

/-- R157, R215. -/
theorem test_initialise :
    nextHas (step (writing .cmInit2))
      (fun t => t.trace == [.settle, .write (pack (fwd 0xA5 0xFF)) (.written 34)] && t.phase == .cmRand1) = true := by decide

/-- R158, R216. -/
theorem test_randomise :
    nextHas (step (writing .cmRand2))
      (fun t => t.trace == [.settle, .write (pack (fwd 0xA7 0x00)) (.written 34)] && t.phase == .cmPass) = true := by decide

/-- R159, R219. -/
theorem test_searchaddrh :
    nextHas (step ({ writing .cmSh with cand := 0x7FFFFF }))
      (fun t => t.trace == [.settle, .write (pack (fwd 0xB1 0x7F)) (.written 34)] && t.phase == .cmSm) = true := by decide

/-- R160, R224 (A3). -/
theorem test_searchaddrm :
    nextHas (step ({ writing .cmXm with cand := 0x123456 }))
      (fun t => t.trace == [.settle, .write (pack (fwd 0xB3 0x34)) (.written 34)] && t.phase == .cmXl) = true := by decide

/-- R161, R224 (A8). -/
theorem test_searchaddrl :
    nextHas (step ({ writing .cmXl with cand := 0xFFFFFE }))
      (fun t => t.trace == [.settle, .write (pack (fwd 0xB5 0xFE)) (.written 34)] && t.phase == .cmProg) = true := by decide

/-- R162, R220. -/
theorem test_compare :
    nextHas (step (writing .cmCmp))
      (fun t => t.trace == [.settle, .write (pack (fwd 0xA9 0x00)) (.written 34)] && t.phase == .cmAwait) = true := by decide

/-- R163, R225 (A1). -/
theorem test_program_short :
    nextHas (step ({ writing .cmProg with assigned := 63 }))
      (fun t => t.trace == [.settle, .write (pack (fwd 0xB7 0x7F)) (.written 34)] && t.assigned == 63) = true := by decide

/-- R164, R226. -/
theorem test_withdraw :
    nextHas (step (writing .cmWdraw))
      (fun t => t.trace == [.settle, .write (pack (fwd 0xAB 0x00)) (.written 34)] && t.phase == .cmLon) = true := by decide

/-- R165, R229. -/
theorem test_terminate :
    nextHas (step (writing .cmTerm))
      (fun t => t.trace == [.settle, .write (pack (fwd 0xA1 0x00)) (.written 34)] && t.phase == .cmBon) = true := by decide

/-- R166, R194. -/
theorem test_query_status :
    nextHas (step ({ writing .scQ with scanix := 3 }))
      (fun t => t.trace == [.settle, .write (pack (fwd 0x07 0x90)) (.written 34)] && t.phase == .scAwait) = true := by decide

/-- R167, R196. -/
theorem test_sa_on :
    nextHas (step ({ writing .scTon with scanix := 7 }))
      (fun t => t.trace == [.settle, .write (pack (fwd 0x0F 0x05)) (.written 34)] && t.scanix == 7) = true := by decide

/-- R168, R197. -/
theorem test_sa_off :
    nextHas (step ({ writing .scToff with scanix := 7 }))
      (fun t => t.trace == [.settle, .write (pack (fwd 0x0F 0x00)) (.written 34)] && t.scanix == 8) = true := by decide

/-- R168, R228 (P4). -/
theorem test_sa_off_commission :
    nextHas (step ({ writing .cmLoff with assigned := 1 }))
      (fun t => t.trace == [.settle, .write (pack (fwd 0x03 0x00)) (.written 34)] && t.assigned == 2 && t.phase == .cmPass) = true := by decide

/-! ### The steps without a frame, and errors -/

/-- P-5 (R153, R195). -/
theorem test_scan_read_fault :
    nextHas (step { reading .scAwait .fail with scanix := 7 }) (fun t => t.scanix == 8 && t.phase == .scQ && t.resp == .noResponse) = true := by decide

/-- P5 frame 5 (R195). -/
theorem test_scan_answer :
    nextHas (step { reading .scAwait (.bytes (pack (bwd 0xFF))) with scanix := 3 }) (fun t => t.occ == 0x8 && t.phase == .scTon) = true := by decide

/-- P6. -/
theorem test_commission_read_fault :
    nextHas (step (window (reading .cmAwait .fail) 0 0x0FFFFF 0x07FFFF)) (fun t => t.phase == .idle && t.errctx ==
      some { op := .commission, phase := .cmAwait, assigned := some 0, low := some 0, high := some 0x0FFFFF, scanix := none }) = true := by decide

/-- S7: a response lowers HIGH (R221, 90 C2). -/
theorem test_compare_answer :
    nextHas (step (window (reading .cmAwait (.bytes (pack (bwd 0xFF)))) 0 0xFFFFFF 0x7FFFFF))
      (fun t => t.high == 0x7FFFFF && t.low == 0) = true := by decide

/-- S6: silence raises LOW (R221). -/
theorem test_compare_silence :
    nextHas (step (window (reading .cmAwait .timeout) 0 0xFFFFFF 0x7FFFFF)) (fun t => t.low == 0x7FFFFF && t.high == 0xFFFFFF) = true := by decide

/-- A7. -/
theorem test_window_test :
    nextHas (step (window (on .cmTest) 0x7FFFFF 0x800000 0)) (fun t => t.phase == .cmCheck) = true := by decide

/-- R218, R256. -/
theorem test_window_invariant :
    nextHas (step (window (on .cmTest) 5 5 0)) (fun t => t.status == .protocolInvariantError && t.trace.length == 1) = true := by decide

/-- A8. -/
theorem test_selection :
    nextHas (step (window (on .cmCheck) 0xFFFFFD 0xFFFFFE 0)) (fun t => t.cand == 0xFFFFFE && t.phase == .cmXh) = true := by decide

/-- S6. -/
theorem test_sentinel :
    nextHas (step (window (on .cmCheck) 0xFFFFFE 0xFFFFFF 0)) (fun t => t.phase == .cmTerm) = true := by decide

/-- R217. -/
theorem test_sixty_four :
    nextHas (step { on .cmPass with assigned := 64 }) (fun t => t.phase == .cmTerm) = true := by decide

/-- R231: HIGH has no value before the first CM_PASS. -/
theorem test_write_error_before_pass :
    nextHas (step (writing .cmRand2 .fail)) (fun t => t.status == .transportWriteError && t.errctx ==
      some { op := .commission, phase := .cmRand2, assigned := some 0, low := some 0, high := none, scanix := none }) = true := by decide

/-- R281. -/
theorem test_reset_input :
    nextHas (step { on .cmSm with resetIn := some 0, status := .transportReadError }) (fun t => t.phase == .idle && t.status == .ok) = true := by decide

/-- R73: at the search address, above it, and withdrawn. -/
theorem test_slave_compare :
    (slaveAnswer 0 .compare { device 5 with long := 5, sr := 5, init := true },
      slaveAnswer 0 .compare { device 5 with long := 5, sr := 4, init := true },
      slaveAnswer 0 .compare { device 5 with long := 5, sr := 5, init := true, wd := true }) = (some 0xFF, none, none) := by decide

/-- R74: bits 6..1 of any data byte. -/
theorem test_slave_program_any_token :
    nextHas (step { onBus .idle (busOf [{ device 5 with long := 5, sr := 5, init := true }]) with requests := [{ word := 0x3B702, data := [] }] })
      (fun t => t.env.bus.map (fun b => b.slaves.map Slave.short) == some [some 1]) = true := by decide

/-- R72: a search-address frame leaves the other bytes. -/
theorem test_search_address_any_order :
    (((busOf [{ device 5 with init := true }]).deliver 0 (some (.searchaddrl 0x33))).deliver 1 (some (.searchaddrh 0x11))).slaves.map Slave.sr = [0x110033] := by decide

/-- R72: three bytes in any order, nothing between them. -/
theorem test_whole_address_kept :
    (((((busOf [{ device 5 with init := true }]).deliver 0 (some (.searchaddrl 0x33))).deliver 1 (some (.searchaddrm 0x22))).deliver 2
      (some (.searchaddrh 0x11))).deliver 3 (some .compare)).slaves.map Slave.sr = [0x112233] := by decide

/-- R72: a byte after a whole address leaves the other two, and the COMPARE splits no three frames. -/
theorem test_compare_after_one_byte :
    ((((((busOf [{ device 5 with init := true }]).deliver 0 (some (.searchaddrh 0x11))).deliver 1 (some (.searchaddrm 0x22))).deliver 2
      (some (.searchaddrl 0x33))).deliver 3 (some (.searchaddrh 0x44))).deliver 4 (some .compare)).slaves.map Slave.sr = [0x442233] := by decide

/-- 93 U1 frees the register of active slaves; R72 holds of a withdrawn one. -/
theorem test_withdrawn_keeps_bytes :
    (({ busOf [{ device 5 with init := true, wd := true }] with seq := { SearchSeq.idle with high := .left } }).deliver 0
      (some (.searchaddrm 0x22))).slaves.map Slave.sr = [0x002200] := by decide

/-- 93 U1: traffic between SEARCHADDRH and SEARCHADDRL, though the middle byte comes again. -/
theorem test_repeated_byte_stays_broken :
    ((((((busOf [{ device 5 with init := true }]).deliver 0 (some (.searchaddrh 0x11))).deliver 1 (some (.searchaddrm 0x22))).deliver 2
      (some .bcOn)).deliver 3 (some (.searchaddrm 0x44))).deliver 4 (some (.searchaddrl 0x33))).slaves.map Slave.sr =
      [(Config.freeSlave 4 0).sr] := rfl

/-- R286, R289: a stop between PROGRAM_SHORT and WITHDRAW, with no INITIALISE before. -/
theorem test_stop_before_withdraw_cuts :
    (onBus .idle (({ busOf [] with seq := .ready }).deliver 0 (some (.programShort 0)))).wait.env.bus.map Bus.search =
      some .lost := by decide

/-- R289, 93 U9. -/
theorem test_partial_write_loses_search :
    nextHas (exec (.issue 0xAB 0x00) { writing .idle (.written 33) with
      env := { writes := [some (.written 33)], reads := [], bus := some (busOf []), draws := 0 } })
      (fun t => t.env.bus.map Bus.search == some .lost) = true := by decide

/-- R289: INITIALISE ends the draw. -/
theorem test_initialise_opens_lost_search :
    (({ busOf [device 5] with search := .lost }).deliver 0 (some .initialise)).slaves.map (fun (d : Slave) => (d.init, d.wd)) = [(true, false)] := by decide

/-- Log entry 16, the model's choice. -/
theorem test_reset_keeps_lamp : (slaveEffect 0 .bcReset { device 5 with lamp := true }).lamp = true := by decide

/-- P2: a timeout leaves the search as it is. -/
theorem test_await_timeout_keeps_search :
    nextHas (exec .await (onBus .idle { busOf [{ device 5 with init := true, sr := 7 }] with search := .opened }))
      (fun t => t.status == .transportReadTimeout && t.env.bus.map (fun b => b.slaves.map Slave.sr) == some [7]) = true := by decide

/-- R289: a read error cuts the host's search. -/
theorem test_await_fault_cuts_search :
    nextHas (exec .await { onBus .idle { busOf [] with search := .opened } with
      env := { writes := [], reads := [some .fail], bus := some { busOf [] with search := .opened }, draws := 0 } })
      (fun t => t.env.bus == some { busOf [] with search := .lost }) = true := by decide

/-- R74. -/
theorem test_slave_program :
    (slaveEffect 0 (.programShort 1) { device 5 with long := 5, sr := 5, init := true }).short = some 1 := by decide

/-! ### Witnesses: for each statement with hypotheses, states and operands that meet them, at the bounds of every clause -/

theorem wit_StepRunsDecodedRequest :
      (∃ (s : State) (r : HostRequest) (i : Instr), s.phase = .idle ∧ s.requests = [r] ∧ decodeRequest r.word = .ok i ∧
        s.resetIn = none) ∧
      (∃ (s : State) (r : HostRequest) (i : Instr), s.phase = .idle ∧ s.requests = [r] ∧ decodeRequest r.word = .ok i ∧
        s.resetIn = some (0 + 1)) :=
  ⟨⟨asked 0x3FF20, ⟨0x3FF20, []⟩, .issue 0xFF 0x20, rfl, rfl, rfl, rfl⟩, ⟨{ asked 0x60000 with resetIn := some 1 }, ⟨0x60000, []⟩, .commission, rfl, rfl, rfl, rfl⟩⟩

theorem wit_StepRunsFrameOfPhase :
      (∃ s : State, s.resetIn = none ∧ s.phase = .scQ ∧ s.scanix < 64) ∧
      (∃ s : State, s.resetIn = none ∧ s.phase = .scBoff) ∧
      (∃ s : State, s.resetIn = none ∧ s.phase = .scTon) ∧
      (∃ s : State, s.resetIn = none ∧ s.phase = .scToff) ∧
      (∃ s : State, s.resetIn = none ∧ s.phase = .scBon) ∧
      (∃ s : State, s.resetIn = none ∧ s.phase = .cmReset1) ∧
      (∃ s : State, s.resetIn = none ∧ s.phase = .cmReset2) ∧
      (∃ s : State, s.resetIn = none ∧ s.phase = .cmInit1) ∧
      (∃ s : State, s.resetIn = none ∧ s.phase = .cmInit2) ∧
      (∃ s : State, s.resetIn = none ∧ s.phase = .cmRand1) ∧
      (∃ s : State, s.resetIn = none ∧ s.phase = .cmRand2) ∧
      (∃ s : State, s.resetIn = none ∧ s.phase = .cmSh) ∧
      (∃ s : State, s.resetIn = none ∧ s.phase = .cmXh) ∧
      (∃ s : State, s.resetIn = none ∧ s.phase = .cmSm) ∧
      (∃ s : State, s.resetIn = none ∧ s.phase = .cmXm) ∧
      (∃ s : State, s.resetIn = none ∧ s.phase = .cmSl) ∧
      (∃ s : State, s.resetIn = none ∧ s.phase = .cmXl) ∧
      (∃ s : State, s.resetIn = none ∧ s.phase = .cmCmp) ∧
      (∃ s : State, s.resetIn = none ∧ s.phase = .cmProg) ∧
      (∃ s : State, s.resetIn = none ∧ s.phase = .cmWdraw) ∧
      (∃ s : State, s.resetIn = none ∧ s.phase = .cmLon) ∧
      (∃ s : State, s.resetIn = none ∧ s.phase = .cmLoff) ∧
      (∃ s : State, s.resetIn = none ∧ s.phase = .cmTerm) ∧
      (∃ s : State, s.resetIn = none ∧ s.phase = .cmBon) :=
  ⟨⟨{ on .scQ with scanix := 63 }, rfl, rfl, by decide⟩, ⟨on .scBoff, rfl, rfl⟩, ⟨on .scTon, rfl, rfl⟩, ⟨on .scToff, rfl, rfl⟩, ⟨on .scBon, rfl, rfl⟩, ⟨on .cmReset1, rfl, rfl⟩, ⟨on .cmReset2, rfl, rfl⟩, ⟨on .cmInit1, rfl, rfl⟩, ⟨on .cmInit2, rfl, rfl⟩, ⟨on .cmRand1, rfl, rfl⟩, ⟨on .cmRand2, rfl, rfl⟩, ⟨on .cmSh, rfl, rfl⟩, ⟨on .cmXh, rfl, rfl⟩, ⟨on .cmSm, rfl, rfl⟩, ⟨on .cmXm, rfl, rfl⟩, ⟨on .cmSl, rfl, rfl⟩, ⟨on .cmXl, rfl, rfl⟩, ⟨on .cmCmp, rfl, rfl⟩, ⟨on .cmProg, rfl, rfl⟩, ⟨on .cmWdraw, rfl, rfl⟩, ⟨on .cmLon, rfl, rfl⟩, ⟨on .cmLoff, rfl, rfl⟩, ⟨on .cmTerm, rfl, rfl⟩, ⟨on .cmBon, rfl, rfl⟩⟩

theorem wit_IdleBlockWaits :
      (∃ s : State, s.phase = .idle ∧ s.requests = [] ∧ s.resetIn = none ∧ ∀ b, s.env.bus = some b → b.search = .closed ∧ b.seq = .idle) ∧
      (∃ (s : State) (b : Bus), s.phase = .idle ∧ s.requests = [] ∧ s.resetIn = none ∧ s.env.bus = some b ∧ b.search = .lost) ∧
      (∃ (s : State) (b : Bus), s.phase = .idle ∧ s.requests = [] ∧ s.resetIn = none ∧ s.env.bus = some b ∧ b.seq ≠ .idle) :=
  ⟨⟨State.reset, rfl, rfl, rfl, fun _ h => nomatch h⟩, ⟨onBus .idle { busOf [] with search := .lost }, _, rfl, rfl, rfl, rfl, rfl⟩, ⟨onBus .idle { busOf [] with seq := .ready }, _, rfl, rfl, rfl, rfl, by decide⟩⟩

theorem wit_DecodeOfEncodeIsSame :
    Cmd.default.distinct = true :=
  by decide

theorem wit_EncodeOfDecodeIsSame :
      (decode Cmd.default (.frame 0xB77F) = .ok (.programShort 63)) ∧
      (decode Cmd.default (.request 0x7FFFF) = .ok (.reservedOp7 0xFFFF)) :=
  ⟨rfl, rfl⟩

theorem wit_IllFormedRequestsAreRefused :
      (∃ (s : State) (r : HostRequest), s.phase = .idle ∧ s.resetIn = none ∧ s.requests = [r] ∧ r.word.extractLsb' 16 3 = 7) ∧
      (∃ (s : State) (r : HostRequest), s.phase = .idle ∧ s.resetIn = none ∧ s.requests = [r] ∧ r.word.extractLsb' 16 3 ∈ [1#3, 4#3, 5#3, 6#3] ∧ r.word.extractLsb' 8 8 ≠ 0) ∧
      (∃ (s : State) (r : HostRequest), s.phase = .idle ∧ s.resetIn = none ∧ s.requests = [r] ∧ r.word.extractLsb' 16 3 ∈ [1#3, 4#3, 5#3, 6#3] ∧ r.word.extractLsb' 0 8 ≠ 0) ∧
      (∃ (s : State) (r : HostRequest), s.phase = .idle ∧ s.resetIn = none ∧ s.requests = [r] ∧ r.word.extractLsb' 16 3 = 2 ∧ r.word.extractLsb' 8 8 ≠ 0) ∧
      (∃ (s : State) (r : HostRequest), s.phase = .idle ∧ s.resetIn = none ∧ s.requests = [r] ∧ r.word.extractLsb' 16 3 = 2 ∧ r.word.extractLsb' 8 8 = 0 ∧ r.word.extractLsb' 0 8 ≠ 8 ∧ r.word.extractLsb' 0 8 ≠ 16) ∧
      (∃ (s : State) (i : Instr), s.phase ≠ .idle ∧ framePair s.cfg.cmd i = none ∧ i.wf = true) ∧
      (∃ (s : State) (i : Instr), s.phase ≠ .idle ∧ framePair s.cfg.cmd i = none ∧ i.wf = false) :=
  ⟨⟨asked 0x70000, ⟨0x70000, []⟩, rfl, rfl, rfl, by decide⟩, ⟨asked 0x1FF00, ⟨0x1FF00, []⟩, rfl, rfl, rfl, by decide⟩, ⟨asked 0x60001, ⟨0x60001, []⟩, rfl, rfl, rfl, by decide⟩, ⟨asked 0x20108, ⟨0x20108, []⟩, rfl, rfl, rfl, by decide⟩, ⟨asked 0x20009, ⟨0x20009, []⟩, rfl, rfl, rfl, by decide⟩, ⟨on .cmTest, .encode 0 0, by decide, rfl, rfl⟩, ⟨on .cmTest, .reservedOp7 0, by decide, rfl, rfl⟩⟩

theorem wit_ForwardFramesAreDistinct :
    pack (fwd 0xFF 0x20) = pack (fwd 0xFF 0x20) :=
  rfl

theorem wit_DecodeReadsExactlyTheFrames :
      decodeBuffer 8 (pack (bwd 0xA5)) = some 0xA5 ∧
      decodeBuffer 16 (pack (fwd 0xFF 0x20)) = some ((0xFF : Byte) ++ (0x20 : Byte)) :=
  ⟨by decide, by decide⟩

theorem wit_EncodeReturnsFrame :
    State.reset.phase = .idle :=
  rfl

theorem wit_ClassifyReturnsPresence :
      (∃ s : State, s.phase = .idle ∧ ∀ b ∈ s.hostData, b = 0xFF) ∧
      (∃ s : State, s.phase = .idle ∧ ∃ b ∈ s.hostData, b ≠ 0xFF) :=
  ⟨⟨given [0xFF, 0xFF], rfl, by decide⟩, ⟨given [0xFF, 0xFE], rfl, by decide⟩⟩

theorem wit_DecodeReturnsValueOrInvalid :
      (∃ s : State, s.phase = .idle ∧ ∃ v, s.hostData = pack (bwd v)) ∧
      (∃ s : State, s.phase = .idle ∧ ∀ v, s.hostData ≠ pack (bwd v)) ∧
      (∃ s : State, s.phase = .idle ∧ ∃ a c, s.hostData = pack (fwd a c)) ∧
      (∃ s : State, s.phase = .idle ∧ ∀ a c, s.hostData ≠ pack (fwd a c)) :=
  ⟨⟨given (pack (bwd 0xA5)), rfl, 0xA5, rfl⟩, ⟨given [0xFF], rfl, fun v h => absurd (congrArg List.length h) (show 1 ≠ 18 by decide)⟩, ⟨given (pack (fwd 0x01 0x05)), rfl, 0x01, 0x05, rfl⟩, ⟨given [0xFF], rfl, fun a c h => absurd (congrArg List.length h) (show 1 ≠ 34 by decide)⟩⟩

theorem wit_CollisionsClassifyResponded :
    ([0xFF, 0x0F] : List Byte) ≠ [] :=
  by decide

theorem wit_CodecOperationsTouchNothingElse :
      (∃ t, exec (.encode 1 5) State.reset = .next t) ∧
      (∃ t, exec .classify (given [0xFF]) = .next t) ∧
      (∃ t, exec (.decode 8) (given [0xFF]) = .next t) :=
  ⟨⟨_, rfl⟩, ⟨_, rfl⟩, ⟨_, rfl⟩⟩

theorem wit_ReadsBringAtMostWhatWasAsked :
    (reading .idle (.bytes (List.replicate 20 0xFF))).env.nextRead 18 = .bytes (List.replicate 18 0xFF) :=
  by decide

theorem wit_IssueWritesOneFrame :
      (∃ s : State, s.phase = .idle ∧ s.env.nextWrite = .written 34) ∧
      (∃ s : State, s.phase = .idle ∧ s.env.nextWrite ≠ .written 34) ∧
      (∃ s : State, s.phase = .idle ∧ s.env.nextWrite ≠ .written 34) :=
  ⟨⟨writing .idle, rfl, rfl⟩, ⟨writing .idle (.written 33), rfl, by decide⟩, ⟨writing .idle .fail, rfl, by decide⟩⟩

theorem wit_AwaitReadsOneFrame :
      (∃ s : State, s.phase = .idle ∧ s.env.nextRead 18 = .timeout) ∧
      (∃ s : State, s.phase = .idle ∧ s.env.nextRead 18 = .bytes []) ∧
      (∃ s : State, s.phase = .idle ∧ s.env.nextRead 18 = .fail) ∧
      (∃ s : State, s.phase = .idle ∧ showsResponse (s.env.nextRead 18)) ∧
      (∃ s : State, s.phase = .idle ∧ s.env.nextRead 18 = .bytes [0xFF]) :=
  ⟨⟨reading .idle .timeout, rfl, rfl⟩, ⟨reading .idle (.bytes []), rfl, rfl⟩, ⟨reading .idle .fail, rfl, rfl⟩, ⟨reading .idle (.bytes [0xFE]), rfl, [0xFE], rfl, by decide⟩, ⟨reading .idle (.bytes [0xFF]), rfl, rfl⟩⟩

theorem wit_BroadcastFramesComplete :
      (∃ s : State, s.env.nextWrite = .written 34 ∧ s.phase = .cmReset1) ∧
      (∃ s : State, s.env.nextWrite = .written 34 ∧ s.phase = .cmReset2) ∧
      (∃ s : State, s.env.nextWrite = .written 34 ∧ s.phase = .scBoff) ∧
      (∃ s : State, s.env.nextWrite = .written 34 ∧ s.phase = .scBon) ∧
      (∃ s : State, s.env.nextWrite = .written 34 ∧ s.phase = .cmBon) :=
  ⟨⟨writing .cmReset1, rfl, rfl⟩, ⟨writing .cmReset2, rfl, rfl⟩, ⟨writing .scBoff, rfl, rfl⟩, ⟨writing .scBon, rfl, rfl⟩, ⟨writing .cmBon, rfl, rfl⟩⟩

theorem wit_AddressingFramesComplete :
      (∃ s : State, s.env.nextWrite = .written 34 ∧ s.phase = .cmInit1) ∧
      (∃ s : State, s.env.nextWrite = .written 34 ∧ s.phase = .cmInit2) ∧
      (∃ s : State, s.env.nextWrite = .written 34 ∧ s.phase = .cmRand1) ∧
      (∃ s : State, s.env.nextWrite = .written 34 ∧ s.phase = .cmRand2) ∧
      (∃ s : State, s.env.nextWrite = .written 34 ∧ s.phase = .cmCmp) ∧
      (∃ s : State, s.env.nextWrite = .written 34 ∧ s.phase = .cmWdraw) ∧
      (∃ s : State, s.env.nextWrite = .written 34 ∧ s.phase = .cmTerm) :=
  ⟨⟨writing .cmInit1, rfl, rfl⟩, ⟨writing .cmInit2, rfl, rfl⟩, ⟨writing .cmRand1, rfl, rfl⟩, ⟨writing .cmRand2, rfl, rfl⟩, ⟨writing .cmCmp, rfl, rfl⟩, ⟨writing .cmWdraw, rfl, rfl⟩, ⟨writing .cmTerm, rfl, rfl⟩⟩

theorem wit_SearchAddressFramesComplete :
      (∃ s : State, s.env.nextWrite = .written 34 ∧ s.phase = .cmSh) ∧
      (∃ s : State, s.env.nextWrite = .written 34 ∧ s.phase = .cmSm) ∧
      (∃ s : State, s.env.nextWrite = .written 34 ∧ s.phase = .cmSl) ∧
      (∃ s : State, s.env.nextWrite = .written 34 ∧ s.phase = .cmXh) ∧
      (∃ s : State, s.env.nextWrite = .written 34 ∧ s.phase = .cmXm) ∧
      (∃ s : State, s.env.nextWrite = .written 34 ∧ s.phase = .cmXl) :=
  ⟨⟨writing .cmSh, rfl, rfl⟩, ⟨writing .cmSm, rfl, rfl⟩, ⟨writing .cmSl, rfl, rfl⟩, ⟨writing .cmXh, rfl, rfl⟩, ⟨writing .cmXm, rfl, rfl⟩, ⟨writing .cmXl, rfl, rfl⟩⟩

theorem wit_ShortAddressFramesComplete :
      (∃ s : State, s.env.nextWrite = .written 34 ∧ s.phase = .cmProg) ∧
      (∃ s : State, s.env.nextWrite = .written 34 ∧ s.phase = .scQ) ∧
      (∃ s : State, s.env.nextWrite = .written 34 ∧ s.phase = .scTon) ∧
      (∃ s : State, s.env.nextWrite = .written 34 ∧ s.phase = .cmLon) ∧
      (∃ s : State, s.env.nextWrite = .written 34 ∧ s.phase = .scToff) ∧
      (∃ s : State, s.env.nextWrite = .written 34 ∧ s.phase = .cmLoff) :=
  ⟨⟨writing .cmProg, rfl, rfl⟩, ⟨writing .scQ, rfl, rfl⟩, ⟨writing .scTon, rfl, rfl⟩, ⟨writing .cmLon, rfl, rfl⟩, ⟨writing .scToff, rfl, rfl⟩, ⟨writing .cmLoff, rfl, rfl⟩⟩

theorem wit_UnwrittenFrameEndsSequence :
      (∃ s : State, framePair s.cfg.cmd (.programShort 63) = some (0xB7, 0x7F) ∧ s.phase.op = some .commission ∧
        s.env.nextWrite ≠ .written 34) ∧
      (∃ s : State, framePair s.cfg.cmd .bcOff = some (0xFF, 0x00) ∧ s.phase.op = some .scan ∧ s.env.nextWrite ≠ .written 34) :=
  ⟨⟨writing .cmProg (.written 33), rfl, rfl, by decide⟩, ⟨writing .scBoff .fail, rfl, rfl, by decide⟩⟩

theorem wit_FrameOfIdleBlockIsIssue :
    (∃ s : State, framePair s.cfg.cmd .compare = some (0xA9, 0x00) ∧ s.phase = .idle) :=
  ⟨State.reset, rfl, rfl⟩

theorem wit_ScanStarts :
    State.reset.phase = .idle :=
  rfl

theorem wit_ScanMarksAnsweringAddress :
      (∃ s : State, s.resetIn = none ∧ s.phase = .scAwait ∧ s.scanix = 63 ∧ showsResponse (s.env.nextRead 18)) ∧
      (∃ s : State, s.resetIn = none ∧ s.phase = .scAwait ∧ ¬ showsResponse (s.env.nextRead 18)) :=
  ⟨⟨{ reading .scAwait (.bytes [0x00]) with scanix := 63 }, rfl, rfl, rfl, [0x00], rfl, by decide⟩, ⟨reading .scAwait .fail, rfl, rfl, fun h => nomatch h.choose_spec.1⟩⟩

theorem wit_ScanEndsAfterLastAddress :
    (∃ s : State, s.resetIn = none ∧ s.phase = .scQ ∧ s.scanix = 64) :=
  ⟨{ on .scQ with scanix := 64 }, rfl, rfl, rfl⟩

theorem wit_CommissionStarts :
    State.reset.phase = .idle :=
  rfl

theorem wit_PassStartsFromCeiling :
      (∃ s : State, s.resetIn = none ∧ s.phase = .cmPass ∧ s.assigned = 64) ∧
      (∃ s : State, s.resetIn = none ∧ s.phase = .cmPass ∧ s.assigned ≠ 64) :=
  ⟨⟨{ on .cmPass with assigned := 64 }, rfl, rfl, rfl⟩, ⟨{ on .cmPass with assigned := 63 }, rfl, rfl, by decide⟩⟩

theorem wit_SearchTestsWindow :
      (∃ s : State, s.resetIn = none ∧ s.phase = .cmTest ∧ s.high ≤ s.low) ∧
      (∃ s : State, s.resetIn = none ∧ s.phase = .cmTest ∧ s.low.toNat + 1 < s.high.toNat) ∧
      (∃ s : State, s.resetIn = none ∧ s.phase = .cmTest ∧ s.high.toNat = s.low.toNat + 1) :=
  ⟨⟨window (on .cmTest) 5 5 0, rfl, rfl, by decide⟩, ⟨window (on .cmTest) 5 7 0, rfl, rfl, by decide⟩, ⟨window (on .cmTest) 5 6 0, rfl, rfl, by decide⟩⟩

theorem wit_CompareMovesWindow :
      (∃ s : State, s.resetIn = none ∧ s.phase = .cmAwait ∧ showsResponse (s.env.nextRead 18)) ∧
      (∃ s : State, s.resetIn = none ∧ s.phase = .cmAwait ∧ ¬ showsResponse (s.env.nextRead 18) ∧ s.env.nextRead 18 ≠ .fail) ∧
      (∃ s : State, s.resetIn = none ∧ s.phase = .cmAwait ∧ s.env.nextRead 18 = .fail) :=
  ⟨⟨reading .cmAwait (.bytes [0x00]), rfl, rfl, [0x00], rfl, by decide⟩, ⟨reading .cmAwait .timeout, rfl, rfl, (fun h => nomatch h.choose_spec.1), by decide⟩, ⟨reading .cmAwait .fail, rfl, rfl, rfl⟩⟩

theorem wit_PassEndSelectsDevice :
      (∃ s : State, s.resetIn = none ∧ s.phase = .cmCheck ∧ s.high = 0xFFFFFF) ∧
      (∃ s : State, s.resetIn = none ∧ s.phase = .cmCheck ∧ s.high ≠ 0xFFFFFF) :=
  ⟨⟨window (on .cmCheck) 0xFFFFFE 0xFFFFFF 0, rfl, rfl, rfl⟩, ⟨window (on .cmCheck) 0xFFFFFD 0xFFFFFE 0, rfl, rfl, by decide⟩⟩

theorem wit_MidpointHalvesWindow :
    (0xFFFFFD : U24).toNat + 1 < (0xFFFFFF : U24).toNat :=
  by decide

theorem wit_StepKeepsInvariant :
    (∃ s : State, s.Inv ∧ ∃ t, step s = .next t) :=
  ⟨window (on .cmTest) 0 0xFFFFFF 0, by simp [State.Inv, window, on, State.reset], _, rfl⟩

theorem wit_ProtocolInvariantErrorNeverRaised :
    (∃ s : State, s.Inv ∧ s.status ≠ .protocolInvariantError ∧ ∃ t, Sys2Proof.core.run 1 s = .next t ∧ t.phase = .cmTest) :=
  ⟨on .cmPass, by simp [State.Inv, on, State.reset], by decide, _, rfl, rfl⟩

theorem wit_EverySequenceEnds :
      (∃ s : State, s.Inv ∧ s.resetIn = none ∧ s.phase = .scBoff) ∧
      (∃ s : State, s.Inv ∧ s.resetIn = none ∧ s.phase = .cmReset1) :=
  ⟨⟨on .scBoff, by simp [State.Inv, on, State.reset], rfl, rfl⟩, ⟨on .cmReset1, by simp [State.Inv, on, State.reset], rfl, rfl⟩⟩

theorem wit_ErrorEntryIsPrecise :
    (∃ (s t : State) (rest : List Event), s.resetIn = none ∧ s.phase.op = some .commission ∧ step s = .next t ∧
        t.trace = .failed .transportReadError :: rest ∧ s.trace.length < t.trace.length) :=
  ⟨reading .cmAwait .fail, _, _, rfl, rfl, rfl, rfl, by decide⟩

theorem wit_SequenceStepMakesOneCall :
    (∃ s : State, s.resetIn = none ∧ s.phase ≠ .idle ∧ ∃ t, step s = .next t) :=
  ⟨writing .cmCmp, rfl, by decide, _, rfl⟩

theorem wit_ConfigurationIsFixed :
    (∃ s : State, s.phase ≠ .idle ∧ s.resetIn ≠ some 0 ∧ ∃ t, step s = .next t) :=
  ⟨writing .cmCmp, by decide, by decide, _, rfl⟩

theorem wit_NoTrapsAndNoRefusalInSequence :
    (on .cmTest).phase ≠ .idle :=
  by decide

theorem wit_PhaseFollowsTable :
    (∃ s : State, s.resetIn = none ∧ s.phase ≠ .idle ∧ ∃ t, step s = .next t) :=
  ⟨writing .cmLoff, rfl, by decide, _, rfl⟩

theorem wit_ResetInputEndsOperation :
      (∃ s : State, s.resetIn = some 0 ∧ s.phase = .cmSm) ∧
      (∃ s : State, s.resetIn = some 0 ∧ s.phase = .idle) :=
  ⟨⟨{ on .cmSm with resetIn := some 0 }, rfl, rfl⟩, ⟨{ on .idle with resetIn := some 0 }, rfl, rfl⟩⟩

theorem wit_ReferenceSlavesFollowFrames :
      (busOf [device 5]).slaves[0]? = some (device 5) ∧
      (∃ (b : Bus) (d : Slave), b.search ≠ .lost ∧ b.slaves[0]? = some d ∧ d.init = true ∧ d.long = d.sr) ∧
      (∃ (b : Bus) (d : Slave), b.search ≠ .lost ∧ b.slaves[0]? = some d ∧ d.init = true ∧ b.seq = .ready) ∧
      (∃ (b : Bus) (d : Slave), b.search ≠ .lost ∧ b.slaves[0]? = some d ∧ d.init = true ∧ b.seq.high ≠ .left ∧ b.seq.low ≠ .left) ∧
      (∃ (b : Bus) (d : Slave), b.search ≠ .lost ∧ b.slaves[0]? = some d ∧ d.init = true ∧ b.seq.high ≠ .left ∧ b.seq.mid ≠ .left) ∧
      (∃ (b : Bus) (d : Slave), b.search ≠ .lost ∧ b.slaves[0]? = some d ∧ d.init = true ∧ d.long = d.sr ∧ b.seq.whole = true ∧ b.seq.mid ≠ .stale ∧ b.seq.low ≠ .stale) ∧
      Cmd.default.distinct = true :=
  ⟨rfl, ⟨busOf [{ device 5 with init := true }], _, by decide, rfl, rfl, rfl⟩, ⟨{ busOf [{ device 5 with init := true }] with seq := .ready }, _, by decide, rfl, rfl, rfl⟩, ⟨{ busOf [{ device 5 with init := true }] with seq := { SearchSeq.idle with mid := .left } }, _, by decide, rfl, rfl, by decide, by decide⟩, ⟨{ busOf [{ device 5 with init := true }] with seq := { SearchSeq.idle with low := .left } }, _, by decide, rfl, rfl, by decide, by decide⟩, ⟨{ busOf [{ device 5 with init := true }] with seq := { SearchSeq.idle with high := .left, mid := .left, low := .left } }, _, by decide, rfl, rfl, rfl, rfl, by decide, by decide⟩, by decide⟩

theorem wit_SearchAddressIsStoredOnlyUninterrupted :
      (∃ (b : Bus) (d : Slave), b.search ≠ .lost ∧ b.slaves[0]? = some d ∧ d.init = true ∧ b.seq.high = .left) ∧
      (∃ b : Bus, b.search ≠ .lost ∧ b.seq.high = .sent ∧ b.seq.whole = false) ∧
      (∃ (b : Bus) (d : Slave), b.search ≠ .lost ∧ b.slaves[0]? = some d ∧ d.init = true ∧ d.wd = false ∧ b.seq.high = .left) ∧
      (∃ (b : Bus) (d : Slave), b.search ≠ .lost ∧ b.slaves[0]? = some d ∧ d.init = true ∧ d.wd = false ∧ b.seq.low = .left) ∧
      (∃ (b : Bus) (d : Slave), b.search ≠ .lost ∧ b.slaves[0]? = some d ∧ d.init = true ∧ d.wd = false ∧ b.seq.mid = .left) ∧
      (∃ (b : Bus) (d : Slave), b.search ≠ .lost ∧ b.slaves[0]? = some d ∧ d.init = true ∧ d.wd = true) ∧
      (∃ (b : Bus) (d : Slave), b.search ≠ .lost ∧ b.slaves[0]? = some d ∧ d.init = true ∧ b.seq.high ≠ .left ∧ b.seq.low ≠ .left ∧ b.seq.mid ≠ .left) ∧
      (∃ (b : Bus) (d : Slave), b.search ≠ .lost ∧ b.slaves[0]? = some d ∧ b.seq.whole = true ∧ b.seq ≠ .ready ∧ d.init = true ∧ d.wd = false ∧ (∀ x : U24, d.long ≤ x)) ∧
      (∃ b : Bus, b.search ≠ .lost ∧ b.seq.whole = true ∧ b.seq ≠ .ready ∧ ∀ (j : Nat) (d : Slave), b.slaves[j]? = some d → d.init = false) ∧
      (∃ (b : Bus) (d : Slave), b.search ≠ .lost ∧ b.slaves[0]? = some d ∧ d.init = true ∧ d.wd = false ∧ b.seq.whole = true ∧ b.seq.mid = .stale) ∧
      (∃ (b : Bus) (d : Slave), b.search ≠ .lost ∧ b.slaves[0]? = some d ∧ d.init = true ∧ d.wd = false ∧ b.seq.whole = true ∧ b.seq.low = .stale) :=
  ⟨⟨{ busOf [{ device 5 with init := true }] with seq := { SearchSeq.idle with high := .left } }, _, by decide, rfl, rfl, rfl⟩, ⟨{ busOf [{ device 5 with init := true }] with seq := { SearchSeq.idle with high := .sent } }, by decide, rfl, rfl⟩, ⟨{ busOf [{ device 5 with init := true }] with seq := { SearchSeq.idle with high := .left } }, _, by decide, rfl, rfl, rfl, rfl⟩, ⟨{ busOf [{ device 5 with init := true }] with seq := { SearchSeq.idle with low := .left } }, _, by decide, rfl, rfl, rfl, rfl⟩, ⟨{ busOf [{ device 5 with init := true }] with seq := { SearchSeq.idle with mid := .left } }, _, by decide, rfl, rfl, rfl, rfl⟩, ⟨busOf [{ device 5 with init := true, wd := true }], _, by decide, rfl, rfl, rfl⟩, ⟨{ busOf [{ device 5 with init := true }] with seq := { SearchSeq.idle with mid := .stale, low := .stale } }, _, by decide, rfl, rfl, by decide, by decide, by decide⟩, ⟨{ busOf [{ device 5 with init := true }] with seq := { SearchSeq.idle with high := .left, mid := .left, low := .left } }, _, by decide, rfl, rfl, by decide, rfl, rfl, fun x => Nat.zero_le x.toNat⟩, ⟨{ busOf [] with seq := ⟨.sent, .stale, .sent⟩ }, by decide, rfl, by decide, fun _ _ h => nomatch h⟩, ⟨{ busOf [{ device 5 with init := true }] with seq := { SearchSeq.idle with high := .sent, mid := .stale, low := .sent } }, _, by decide, rfl, rfl, rfl, rfl, rfl⟩, ⟨{ busOf [{ device 5 with init := true }] with seq := { SearchSeq.idle with high := .sent, mid := .sent, low := .stale } }, _, by decide, rfl, rfl, rfl, rfl, rfl⟩⟩

theorem wit_InterruptedSearchStaysFree :
      (∃ (b : Bus) (d d' : Slave), b.search = .lost ∧ some (.searchaddrh 1) ≠ some Instr.initialise ∧ b.slaves[0]? = some d ∧
        d' = slaveEffect (Config.freeLong 0 0) (.searchaddrh 1) d) ∧
      (∃ (b : Bus) (d : Slave), b.search = .lost ∧ none ≠ some Instr.initialise ∧ b.slaves[0]? = some d) ∧
      (busOf [device 5]).slaves[0]? = some (device 5) ∧
      WriteOutcome.written 33 ≠ .written 34 ∧
      WriteOutcome.fail ≠ .written 34 ∧
      (busOf []).search ≠ .lost ∧
      (∃ (e : Env) (b : Bus), e.bus = some b ∧ b.search ≠ .closed) ∧
      (∃ (e : Env) (b : Bus), e.bus = some b ∧ b.seq ≠ .idle) ∧
      (∃ (e : Env) (b : Bus), e.bus = some b ∧ b.search = .closed ∧ b.seq = .idle) :=
  ⟨⟨{ busOf [{ device 5 with init := true }] with search := .lost }, _, _, rfl, by decide, rfl, rfl⟩, ⟨{ busOf [{ device 5 with init := true }] with search := .lost }, _, rfl, by decide, rfl⟩, rfl, by decide, by decide, by decide, ⟨(onBus .idle { busOf [] with search := .opened }).env, _, rfl, by decide⟩, ⟨(onBus .idle { busOf [] with seq := .ready }).env, _, rfl, by decide⟩, ⟨(onBus .idle (busOf [])).env, _, rfl, rfl, rfl⟩⟩

theorem wit_ReferenceLampsAndStatusAnswers :
      (∃ (b : Bus) (d : Slave), b.search ≠ .lost ∧ b.slaves[0]? = some d ∧ d.short = some 63) ∧
      (∃ b : Bus, ∃ e ∈ b.slaves, e.short = some 63) ∧
      (∃ b : Bus, ∀ e ∈ b.slaves, e.short ≠ some 63) ∧
      (some Instr.terminate ≠ some .compare ∧ ∀ k, some Instr.terminate ≠ some (.queryStatus k)) :=
  ⟨⟨busOf [{ device 5 with short := some 63 }], _, by decide, rfl, rfl⟩, ⟨busOf [{ device 5 with short := some 63 }], by decide⟩, ⟨busOf [], by decide⟩, ⟨by decide, by decide⟩⟩

theorem wit_CompareIsAnsweredByActiveDevices :
      (∃ b : Bus, b.seq = .ready ∧ ∃ d ∈ b.slaves, d.init = true ∧ d.wd = false ∧ d.long ≤ d.sr) ∧
      (∃ b : Bus, b.seq.whole = false ∧ ∀ d ∈ b.slaves, ¬ (d.init = true ∧ d.wd = false ∧ d.long ≤ d.sr)) ∧
      (∃ b : Bus, b.seq.whole = false ∧ b.seq.high = .left ∧ ∃ d ∈ b.slaves, d.init = true ∧ d.wd = false ∧ d.long ≤ d.sr) :=
  ⟨⟨{ busOf [{ device 5 with init := true }] with seq := .ready }, rfl, by decide⟩, ⟨busOf [{ device 5 with init := true, long := 1 }], rfl, by decide⟩, ⟨{ busOf [{ device 5 with init := true }] with seq := { SearchSeq.idle with high := .left } }, rfl, rfl, by decide⟩⟩

theorem wit_ScanCost :
      (∃ s : State, s.phase = .scBoff ∧ s.scanix = 0 ∧ s.occ = 0 ∧ s.resetIn = none ∧ s.requests = []) ∧
      nextHas (Sys2Proof.core.run 131 (onBus .scBoff (busOf []))) (fun t => t.phase == .idle && t.status == .ok) = true :=
  ⟨⟨onBus .scBoff (busOf []), rfl, rfl, rfl, rfl, rfl⟩, by decide +kernel⟩

theorem wit_CommissionCost :
      (∃ s : State, s.phase = .cmReset1 ∧ s.low = 0 ∧ s.assigned = 0 ∧ s.resetIn = none ∧ s.requests = []) ∧
      nextHas (Sys2Proof.core.run 155 (onBus .cmReset1 (busOf []))) (fun t => t.phase == .idle && t.status == .ok) = true :=
  ⟨⟨onBus .cmReset1 (busOf []), rfl, rfl, rfl, rfl, rfl⟩, by decide +kernel⟩

theorem wit_CommissionFrameBound :
    (∃ s : State, s.phase = .cmReset1 ∧ s.low = 0 ∧ s.assigned = 0 ∧ s.resetIn = none ∧ s.requests = [] ∧
        ∃ t, Sys2Proof.core.run 1 s = .next t) :=
  ⟨writing .cmReset1, rfl, rfl, rfl, rfl, rfl, _, rfl⟩

theorem wit_SearchIsolatesLeastDevice :
      (∃ (s : State) (b : Bus) (m : U24), s.onReferenceBus b ∧ b.search ≠ .lost ∧ s.phase = .cmTest ∧ s.low < m ∧ m ≤ s.high ∧
        (∀ d ∈ b.slaves, activeSlave d = true → m ≤ d.long) ∧ ∃ d ∈ b.slaves, activeSlave d = true ∧ d.long = m) ∧
      (∃ (s : State) (b : Bus) (m : U24), s.onReferenceBus b ∧ b.search ≠ .lost ∧ s.phase = .cmTest ∧ s.low < m ∧ m = s.high ∧
        ∀ d ∈ b.slaves, activeSlave d = true → m ≤ d.long) :=
  ⟨⟨window (onBus .cmTest (busOf [{ device 5 with long := 5, init := true }])) 0 0xFFFFFF 0, _, 5, ⟨rfl, rfl, rfl, rfl, by decide⟩, by decide, rfl,
      by decide, by decide, by decide, by decide⟩, ⟨window (onBus .cmTest (busOf [])) 0xFFFFFE 0xFFFFFF 0, _, 0xFFFFFF, ⟨rfl, rfl, rfl, rfl, by decide⟩, by decide, rfl, by decide, rfl, by decide⟩⟩

theorem wit_CommissionAssignsInAscendingOrder :
      (∃ (s : State) (b : Bus) (new : List Slave), s.onReferenceBus b ∧ b.search ≠ .lost ∧
        s.phase = .cmReset1 ∧ s.low = 0 ∧ s.assigned = 0 ∧ new = b.slaves.filter (fun d => d.short.isNone) ∧ new.length = 2 ∧
        (∀ d ∈ b.slaves, d.short ≠ none → d.init = false ∧ ∀ k, d.short = some k → new.length ≤ k.toNat) ∧
        (∀ d ∈ new, 2 ≤ d.rand.length ∧ 1 ≤ (drawnLong d).toNat ∧ (drawnLong d).toNat ≤ 0xFFFFFE) ∧ (new.map drawnLong).Nodup) ∧
      (∃ (s : State) (b : Bus) (new : List Slave), s.onReferenceBus b ∧ b.search = .lost ∧ (∀ d ∈ b.slaves, d.short = none) ∧
        s.phase = .cmReset1 ∧ s.low = 0 ∧ s.assigned = 0 ∧ new = b.slaves.filter (fun d => d.short.isNone) ∧ new.length = 1 ∧
        (∀ d ∈ b.slaves, d.short ≠ none → d.init = false ∧ ∀ k, d.short = some k → new.length ≤ k.toNat) ∧
        (∀ d ∈ new, 2 ≤ d.rand.length ∧ 1 ≤ (drawnLong d).toNat ∧ (drawnLong d).toNat ≤ 0xFFFFFE) ∧ (new.map drawnLong).Nodup) :=
  ⟨⟨onBus .cmReset1 (busOf [device 1, { device 9 with short := some 2 }, device 0xFFFFFE]), _, [device 1, device 0xFFFFFE],
      ⟨rfl, rfl, rfl, rfl, by decide⟩, by decide, rfl, rfl, rfl, by decide, rfl, by decide, by decide, by decide⟩, ⟨onBus .cmReset1 ({ busOf [device 1] with search := .lost }), _, [device 1],
      ⟨rfl, rfl, rfl, rfl, by decide⟩, rfl, by decide, rfl, rfl, rfl, by decide, rfl, by decide, by decide, by decide⟩⟩

end Sys2Proof.Tests
end

namespace Sys2Proof.Machine

/-! ### Step inversion

What a step can do from any state, a reset due later included: the reset alone, the request
or the wait of an idle block, or one step of a sequence. -/

/-- The countdown of the reset input has run one step (R281). -/
def State.tick (s : State) : State := { s with resetIn := s.resetIn.map Nat.pred }

/-- The request next on the host port has been taken, its buffer latched (R106). -/
def State.accept (r : HostRequest) (rest : List HostRequest) (s : State) : State :=
  { s with requests := rest, hostData := r.data }

@[simp] theorem State.tick_phase (s : State) : s.tick.phase = s.phase := rfl
@[simp] theorem State.tick_cfg (s : State) : s.tick.cfg = s.cfg := rfl

@[simp] theorem State.accept_phase (r : HostRequest) (rest : List HostRequest) (s : State) :
    (s.accept r rest).phase = s.phase := rfl
@[simp] theorem State.accept_cfg (r : HostRequest) (rest : List HostRequest) (s : State) :
    (s.accept r rest).cfg = s.cfg := rfl

theorem State.tick_of_no_reset {s : State} (h : s.resetIn = none) : s.tick = s := by
  cases s
  cases h
  rfl

theorem step_of_reset_due {s : State} (h : s.resetIn = some 0) : step s = .next s.blockReset :=
  step_of_internal (by simp [fetch, h])

theorem fetch_of_reset_not_due {s : State} (h : s.resetIn ≠ some 0) : fetch s = fetchPhase s.tick := by
  cases hr : s.resetIn with
  | none => rw [fetch_of_no_reset hr, State.tick_of_no_reset hr]
  | some k =>
    cases k with
    | zero => exact absurd hr h
    | succ k => simp [fetch, State.tick, hr]

/-- What one step of a sequence can be: its frame written whole or not (R152), or the update of a phase that sends none. -/
inductive SequenceStep (s : State) : State → Prop
  | sent (a c : Byte) (hs : s.phase.sends = true) (hq : s.phase = .scQ → s.scanix ≠ 64)
      (hw : s.env.nextWrite = .written 34) : SequenceStep s (s.txWrite (pack (fwd a c))).settle.advance
  | unsent (op : HostOp) (a c : Byte) (hop : s.phase.op = some op) (hs : s.phase.sends = true)
      (hw : s.env.nextWrite ≠ .written 34) :
      SequenceStep s ((s.txWrite (pack (fwd a c))).raise op .transportWriteError)
  | scanAwait (hp : s.phase = .scAwait) : SequenceStep s s.scanAwait
  | scanDone (hp : s.phase = .scQ) (hn : s.scanix = 64) : SequenceStep s s.scanDone
  | passStart (hp : s.phase = .cmPass) : SequenceStep s s.passStart
  | searchTest (hp : s.phase = .cmTest) : SequenceStep s s.searchTest
  | compareAwait (hp : s.phase = .cmAwait) : SequenceStep s s.compareAwait
  | passCheck (hp : s.phase = .cmCheck) : SequenceStep s s.passCheck

/-- What one step of an idle block can be: it waits, or runs the request that is next. -/
inductive IdleStep (s : State) : State → Prop
  | wait : IdleStep s s.wait
  | request {i : Instr} {r : HostRequest} {rest : List HostRequest} {t : State} (hq : s.requests = r :: rest)
      (hd : decodeRequest r.word = .ok i) (ht : exec i (s.accept r rest) = .next t) : IdleStep s t

/-- A frame run in a sequence is sent whole or not at all. -/
theorem sequenceStep_of_frame {i : Instr} {a c : Byte} {s t : State} (hs : s.phase.sends = true)
    (hq : s.phase = .scQ → s.scanix ≠ 64) (hf : framePair s.cfg.cmd i = some (a, c)) (h : exec i s = .next t) :
    SequenceStep s t := by
  have hop : ∃ op, s.phase.op = some op := by
    refine Option.ne_none_iff_exists'.1 fun hn => ?_
    simp [(Phase.op_eq_none_iff _).1 hn, Phase.sends] at hs
  obtain ⟨op, hop⟩ := hop
  rw [exec_frame hf, busFrame_of_op _ _ hop] at h
  cases h
  rcases sendFrame_cases op a c s with ⟨hw, hh⟩ | ⟨hw, hh⟩ <;> rw [hh]
  · exact .sent a c hs hq hw
  · exact .unsent op a c hop hs hw

/-- A phase of a sequence that sends no frame fetches its own update. -/
theorem fetchPhase_quiet {s : State} (hp : s.phase ≠ .idle)
    (hs : s.phase.sends = false ∨ s.phase = .scQ ∧ s.scanix = 64) :
    ∃ t, fetchPhase s = .internal t ∧ SequenceStep s t := by
  rcases hs with hs | ⟨hp, hn⟩
  · cases h : s.phase <;> simp only [h, Phase.sends, ne_eq, not_true_eq_false, Bool.true_eq_false] at hs hp <;>
      simp only [fetchPhase, h, Fetched.internal.injEq, exists_eq_left']
    case scAwait => exact .scanAwait h
    case cmPass => exact .passStart h
    case cmTest => exact .searchTest h
    case cmAwait => exact .compareAwait h
    case cmCheck => exact .passCheck h
  · exact ⟨_, by simp [fetchPhase, hp, hn, nShort], .scanDone hp hn⟩

theorem step_in_sequence {s t : State} (hr : s.resetIn ≠ some 0) (hp : s.phase ≠ .idle) (h : step s = .next t) :
    SequenceStep s.tick t := by
  by_cases hs : s.phase.sends = true ∧ (s.phase = .scQ → s.scanix ≠ 64)
  · obtain ⟨i, a, c, hf, hpair⟩ := fetchPhase_frame (s := s.tick) hs.1 hs.2
    rw [step_of_run ((fetch_of_reset_not_due hr).trans hf)] at h
    exact sequenceStep_of_frame hs.1 hs.2 hpair h
  · have hquiet : s.phase.sends = false ∨ s.phase = .scQ ∧ s.scanix = 64 := by
      cases hsends : s.phase.sends with
      | false => exact .inl rfl
      | true => exact .inr (by simpa [hsends] using hs)
    obtain ⟨u, hf, hu⟩ := fetchPhase_quiet (s := s.tick) hp hquiet
    rw [step_of_internal ((fetch_of_reset_not_due hr).trans hf)] at h
    cases h
    exact hu

theorem fetchRequest_of_none {s : State} (hq : s.requests = []) : fetchRequest s = .internal s.wait := by
  simp [fetchRequest, hq]

theorem fetchRequest_of_decoded {s : State} {r : HostRequest} {rest : List HostRequest} {i : Instr}
    (hq : s.requests = r :: rest) (hd : decodeRequest r.word = .ok i) : fetchRequest s = .run i (s.accept r rest) := by
  simp [fetchRequest, hq, hd, State.accept]

theorem fetchRequest_of_malformed {s : State} {r : HostRequest} {rest : List HostRequest} {e : DecodeError}
    (hq : s.requests = r :: rest) (hd : decodeRequest r.word = .error e) : fetchRequest s = .refuse (.malformed e) := by
  simp [fetchRequest, hq, hd]

theorem step_of_idle {s t : State} (hr : s.resetIn ≠ some 0) (hp : s.phase = .idle) (h : step s = .next t) :
    IdleStep s.tick t := by
  have hf : fetch s = fetchRequest s.tick := by simp [fetch_of_reset_not_due hr, fetchPhase, hp]
  cases hq : s.tick.requests with
  | nil =>
    rw [step_of_internal (hf.trans (fetchRequest_of_none hq))] at h
    cases h
    exact .wait
  | cons r rest =>
    cases hd : decodeRequest r.word with
    | ok i => exact .request hq hd (by rw [← h, step_of_run (hf.trans (fetchRequest_of_decoded hq hd))])
    | error e => simp [step, hf, fetchRequest_of_malformed hq hd] at h

/-- What a step can be, from any state: the reset alone, a step of an idle block, or a step of a sequence. -/
theorem step_inversion {s t : State} (h : step s = .next t) :
    (s.resetIn = some 0 ∧ t = s.blockReset) ∨ (s.phase = .idle ∧ IdleStep s.tick t) ∨
    (s.phase ≠ .idle ∧ SequenceStep s.tick t) := by
  by_cases hr : s.resetIn = some 0
  · rw [step_of_reset_due hr] at h
    cases h
    exact .inl ⟨hr, rfl⟩
  · by_cases hp : s.phase = .idle
    · exact .inr (.inl ⟨hp, step_of_idle hr hp h⟩)
    · exact .inr (.inr ⟨hp, step_in_sequence hr hp h⟩)

/-- What an idle block makes of an instruction: a result without a transport call, one write, one read, or the start of a
sequence. -/
theorem exec_idle_cases {i : Instr} {s t : State} (hp : s.phase = .idle) (h : exec i s = .next t) :
    (∃ r, t = s.finish r) ∨ (∃ a c, t = s.issueFrame a c) ∨ t = s.awaitFrame ∨
    t = { s with scanix := 0, occ := 0, phase := .scBoff } ∨
    t = { s with low := 0, assigned := 0, phase := .cmReset1 } := by
  cases hf : framePair s.cfg.cmd i with
  | some p =>
    rw [exec_frame hf, busFrame_of_idle _ _ hp] at h
    cases h
    exact .inr (.inl ⟨_, _, rfl⟩)
  | none =>
    cases i <;> simp only [framePair, reduceCtorEq] at hf <;> simp only [exec] at h
    case encode a c =>
      rw [execEncode, whenIdle_of_idle hp] at h; cases h; exact .inl ⟨_, rfl⟩
    case classify =>
      rw [execClassify, whenIdle_of_idle hp] at h; cases h; exact .inl ⟨_, rfl⟩
    case decode n =>
      rw [execDecode, whenIdle_of_idle hp] at h
      split at h <;> cases h
      exact .inl ⟨_, rfl⟩
    case issue a c =>
      rw [execIssue, whenIdle_of_idle hp] at h; cases h; exact .inr (.inl ⟨a, c, rfl⟩)
    case await =>
      rw [execAwait, whenIdle_of_idle hp] at h; cases h; simp
    case scan =>
      rw [execScan, whenIdle_of_idle hp] at h; cases h; simp
    case commission =>
      rw [execCommission, whenIdle_of_idle hp] at h; cases h; simp
    case reservedOp7 x => cases h

/-- AWAIT ends with a classification or with an error (R151). -/
theorem awaitFrame_cases (s : State) :
    (∃ r, s.awaitFrame = (s.txRead bwdLen).finish (.classification r)) ∨
    (∃ e, s.awaitFrame = (s.txRead bwdLen).raise .await e) := by
  unfold State.awaitFrame
  split
  · exact .inl ⟨_, rfl⟩
  · exact .inr ⟨_, rfl⟩

/-- `CM_AWAIT` moves the window by the probe's answer or ends with its error (R221). -/
theorem compareAwait_cases (s : State) :
    (∃ r, probeCommission (s.env.nextRead bwdLen) = .ok r ∧ s.compareAwait = (s.txRead bwdLen).compareAnswer r) ∨
    (∃ e, probeCommission (s.env.nextRead bwdLen) = .error e ∧
      s.compareAwait = (s.txRead bwdLen).raise .commission e) := by
  unfold State.compareAwait
  split
  next r hr => exact .inl ⟨r, hr, rfl⟩
  next e he => exact .inr ⟨e, he, rfl⟩

/-- `CM_PASS` ends the run after 64 devices or starts a pass from the ceiling (R217). -/
theorem passStart_cases (s : State) :
    (s.assigned = 64 ∧ s.passStart = s.goto .cmTerm) ∨
    (s.assigned ≠ 64 ∧ s.passStart = { s with high := ceil, phase := .cmTest }) := by
  by_cases h : s.assigned = 64
  · exact .inl ⟨h, if_pos h⟩
  · exact .inr ⟨h, if_neg h⟩

/-- `CM_TEST` finds the window empty, wider than 1, or of width 1 (R218). -/
theorem searchTest_cases (s : State) :
    (s.high.toNat ≤ s.low.toNat ∧ s.searchTest = s.raise .commission .protocolInvariantError) ∨
    (s.low.toNat + 1 < s.high.toNat ∧
      s.searchTest = { s with cand := windowMid s.low s.high, phase := .cmSh }) ∨
    (s.high.toNat = s.low.toNat + 1 ∧ s.searchTest = s.goto .cmCheck) := by
  unfold State.searchTest
  split
  next hle => exact .inl ⟨BitVec.le_def.1 hle, rfl⟩
  next hlt =>
    rw [BitVec.le_def] at hlt
    split
    next hw => exact .inr (.inl ⟨by omega, rfl⟩)
    next hw => exact .inr (.inr ⟨by omega, rfl⟩)

/-- `CM_CHECK` ends the run at the sentinel or selects the device at `LOW + 1` (R223). -/
theorem passCheck_cases (s : State) :
    (s.high = ceil ∧ s.passCheck = s.goto .cmTerm) ∨
    (s.high ≠ ceil ∧ s.passCheck = { s with cand := s.low + 1, phase := .cmXh }) := by
  by_cases h : s.high = ceil
  · exact .inl ⟨h, if_pos h⟩
  · exact .inr ⟨h, if_neg h⟩

/-! ### Frame

What no step writes: the configuration (R33), and in a sequence the host port (R265). -/

/-- The host port holds the same requests and the same buffer, and the configuration is the same (R33, R265). -/
def State.SamePort (s t : State) : Prop := t.cfg = s.cfg ∧ t.requests = s.requests ∧ t.hostData = s.hostData

theorem scanAwait_samePort (s : State) : s.SamePort s.scanAwait := by
  unfold State.scanAwait State.scanAnswer
  split <;> exact ⟨rfl, rfl, rfl⟩

theorem compareAnswer_samePort (r : Response) (s : State) : s.SamePort (s.compareAnswer r) := by
  cases r <;> exact ⟨rfl, rfl, rfl⟩

/-- A step of a sequence leaves the configuration and the host port alone. -/
theorem SequenceStep.samePort {s t : State} (h : SequenceStep s t) : s.SamePort t := by
  cases h with
  | sent a c => simp [State.SamePort]
  | unsent op a c => simp [State.SamePort]
  | scanAwait => exact scanAwait_samePort s
  | scanDone => exact ⟨rfl, rfl, rfl⟩
  | passStart => rcases passStart_cases s with ⟨-, hh⟩ | ⟨-, hh⟩ <;> rw [hh] <;> exact ⟨rfl, rfl, rfl⟩
  | searchTest => rcases searchTest_cases s with ⟨-, hh⟩ | ⟨-, hh⟩ | ⟨-, hh⟩ <;> rw [hh] <;> exact ⟨rfl, rfl, rfl⟩
  | compareAwait =>
    rcases compareAwait_cases s with ⟨r, -, hh⟩ | ⟨e, -, hh⟩ <;> rw [hh]
    · exact compareAnswer_samePort r (s.txRead bwdLen)
    · exact ⟨rfl, rfl, rfl⟩
  | passCheck => rcases passCheck_cases s with ⟨-, hh⟩ | ⟨-, hh⟩ <;> rw [hh] <;> exact ⟨rfl, rfl, rfl⟩

/-- A host operation leaves the configuration alone. -/
theorem exec_idle_cfg {i : Instr} {s t : State} (hp : s.phase = .idle) (h : exec i s = .next t) : t.cfg = s.cfg := by
  rcases exec_idle_cases hp h with ⟨r, rfl⟩ | ⟨a, c, rfl⟩ | rfl | rfl | rfl
  · rfl
  · rcases issueFrame_cases a c s with ⟨-, hh⟩ | ⟨-, hh⟩ <;> rw [hh] <;> rfl
  · rcases awaitFrame_cases s with ⟨r, hh⟩ | ⟨e, hh⟩ <;> rw [hh] <;> rfl
  · rfl
  · rfl

theorem IdleStep.cfg_eq {s t : State} (h : IdleStep s t) (hp : s.phase = .idle) : t.cfg = s.cfg := by
  cases h with
  | wait => rfl
  | request _ _ ht => exact (exec_idle_cfg (by simpa using hp) ht).trans (State.accept_cfg ..)

/-- Settles O49: whatever the step is, its shape writes no configuration; in a sequence with no reset due it is a sequence step,
which leaves the host port alone too. -/
theorem configurationIsFixed : Obligations.ConfigurationIsFixed := by
  unfold Obligations.ConfigurationIsFixed
  intro s t h
  refine ⟨?_, fun hp hr => (step_in_sequence hr hp h).samePort.2⟩
  rcases step_inversion h with ⟨-, rfl⟩ | ⟨hp, hi⟩ | ⟨-, hs⟩
  · rfl
  · exact (hi.cfg_eq hp).trans s.tick_cfg
  · exact hs.samePort.1

/-! ### Phase table

Where each step of a sequence goes (R191, R212). -/

/-- A probe of the scanner goes on to the toggle or to the next address (R195). -/
theorem scanAwait_phase (s : State) : s.scanAwait.phase = .scTon ∨ s.scanAwait.phase = .scQ := by
  unfold State.scanAwait State.scanAnswer
  split <;> simp

/-- A compare's answer leads back to the test of the window (R221). -/
@[simp] theorem compareAnswer_phase (r : Response) (s : State) : (s.compareAnswer r).phase = .cmTest := by cases r <;> rfl

/-- Settles O51, by the kinds of sequence step: a frame that is sent moves the phase as `advance` does, an error ends the
operation, and each phase without a frame has its own one or two successors. -/
theorem phaseFollowsTable : Obligations.PhaseFollowsTable := by
  unfold Obligations.PhaseFollowsTable
  intro s t hr hp h
  have hstep := step_in_sequence (by simp [hr]) hp h
  rw [State.tick_of_no_reset hr] at hstep
  cases hstep with
  | sent a c hs =>
    cases hph : s.phase <;> simp [hph, Phase.sends, State.advance] at hs ⊢
  | unsent op a c => exact .inl rfl
  | scanAwait hph => rcases scanAwait_phase s with hh | hh <;> simp [hph, hh]
  | scanDone hph => simp [hph, State.scanDone]
  | passStart hph => rcases passStart_cases s with ⟨-, hh⟩ | ⟨-, hh⟩ <;> simp [hph, hh]
  | searchTest hph => rcases searchTest_cases s with ⟨-, hh⟩ | ⟨-, hh⟩ | ⟨-, hh⟩ <;> simp [hph, hh]
  | compareAwait hph => rcases compareAwait_cases s with ⟨r, -, hh⟩ | ⟨e, -, hh⟩ <;> simp [hph, hh]
  | passCheck hph => rcases passCheck_cases s with ⟨-, hh⟩ | ⟨-, hh⟩ <;> simp [hph, hh]

/-! ### Phase invariant

The phase invariant holds after reset and every step keeps it (R24 to R28, R222, R223, R241). -/

/-- The midpoint is formed without loss (R222). -/
theorem windowMid_toNat (low high : U24) : (windowMid low high).toNat = (low.toNat + high.toNat) / 2 := by
  have hl := low.isLt
  have hh := high.isLt
  rw [windowMid, BitVec.toNat_ofNat]
  omega

/-- Marking address `a` keeps the occupancy set below bit `a + 1` (R9). -/
theorem setOcc_toNat_lt {occ : U64} {a : Nat} (h : occ.toNat < 2 ^ a) :
    (setOcc occ a).toNat < 2 ^ (a + 1) := by
  have hbit : (1#64 <<< a).toNat ≤ 2 ^ a := by
    rw [BitVec.toNat_shiftLeft, BitVec.toNat_ofNat, Nat.shiftLeft_eq]
    exact (Nat.mod_le _ _).trans (by simp)
  rw [setOcc, BitVec.toNat_or]
  have hlt : 2 ^ a < 2 ^ (a + 1) := Nat.pow_lt_pow_succ (by decide)
  exact Nat.or_lt_two_pow (h.trans hlt) (hbit.trans_lt hlt)

/-- In an idle block the registers are dead (R27). -/
theorem inv_of_idle {s : State} (h : s.phase = .idle) : s.Inv := by simp [State.Inv, h]

/-- The invariant speaks of the phase and six registers, none of which a transport call writes. -/
theorem inv_sent_iff (b : List Byte) (s : State) : (s.txWrite b).settle.Inv ↔ s.Inv := Iff.rfl

theorem inv_txRead_iff (m : Nat) (s : State) : (s.txRead m).Inv ↔ s.Inv := Iff.rfl

/-- A frame's own updates keep the invariant; at `SC_Q` a frame is sent only while addresses are left (R194). -/
theorem advance_inv {s : State} (h : s.Inv) (hq : s.phase = .scQ → s.scanix ≠ 64) : s.advance.Inv := by
  cases hp : s.phase <;> simp only [State.Inv, hp] at h <;>
    simp only [State.advance, hp, State.Inv, State.goto, State.finish]
  case scBoff => simp [h]
  case scQ => exact ⟨lt_of_le_of_ne h.1 (hq hp), h.2⟩
  case scToff => exact ⟨h.1, h.2⟩
  case cmRand2 => simp [h]
  case cmLoff => omega
  all_goals exact h

/-- A probe of the scanner marks the address it asked, or goes on to the next (R195). -/
theorem scanAwait_inv {s : State} (hp : s.phase = .scAwait) (h : s.Inv) : s.scanAwait.Inv := by
  simp only [State.Inv, hp] at h
  obtain ⟨hix, hocc⟩ := h
  unfold State.scanAwait
  cases probeScan (s.env.nextRead bwdLen) with
  | responded => exact ⟨hix, setOcc_toNat_lt hocc⟩
  | noResponse => exact ⟨hix, hocc.trans (Nat.pow_lt_pow_succ (by decide))⟩

/-- A new pass starts below the ceiling (R217). -/
theorem passStart_inv {s : State} (hp : s.phase = .cmPass) (h : s.Inv) : s.passStart.Inv := by
  simp only [State.Inv, hp] at h
  obtain ⟨hass, hlow⟩ := h
  rcases passStart_cases s with ⟨-, hh⟩ | ⟨hne, hh⟩ <;> rw [hh]
  · exact hass
  · have hceil : ceil.toNat = 0xFFFFFF := rfl
    simp only [State.Inv]
    omega

/-- `CM_TEST` takes the midpoint of a window wider than 1 (R218, R222). -/
theorem searchTest_inv {s : State} (hp : s.phase = .cmTest) (h : s.Inv) : s.searchTest.Inv := by
  simp only [State.Inv, hp] at h
  rcases searchTest_cases s with ⟨-, hh⟩ | ⟨hwide, hh⟩ | ⟨hone, hh⟩ <;> rw [hh]
  · exact inv_of_idle rfl
  · exact ⟨h.1, hwide, rfl⟩
  · exact ⟨h.1, hone⟩

/-- Moving either bound to the midpoint leaves the window non-empty (R221, R222). -/
theorem compareAnswer_inv {s : State} (r : Response) (hp : s.phase = .cmAwait) (h : s.Inv) : (s.compareAnswer r).Inv := by
  simp only [State.Inv, hp] at h
  obtain ⟨hass, hwide, hcand⟩ := h
  have hmid := windowMid_toNat s.low s.high
  cases r <;> simp only [State.compareAnswer, State.Inv, hcand, hmid] <;> omega

theorem compareAwait_inv {s : State} (hp : s.phase = .cmAwait) (h : s.Inv) : s.compareAwait.Inv := by
  rcases compareAwait_cases s with ⟨r, -, hh⟩ | ⟨e, -, hh⟩ <;> rw [hh]
  · exact compareAnswer_inv r hp ((inv_txRead_iff bwdLen s).2 h)
  · exact inv_of_idle rfl

/-- The device selected below the ceiling stands at `LOW + 1 = HIGH` (R223). -/
theorem passCheck_inv {s : State} (hp : s.phase = .cmCheck) (h : s.Inv) : s.passCheck.Inv := by
  simp only [State.Inv, hp] at h
  obtain ⟨hass, hone⟩ := h
  rcases passCheck_cases s with ⟨-, hh⟩ | ⟨hne, hh⟩ <;> rw [hh]
  · exact hass.le
  · have hcand : s.low + 1 = s.high := by
      apply BitVec.eq_of_toNat_eq
      bv_omega
    have hceil : s.high.toNat ≠ 0xFFFFFF := fun he => hne (BitVec.eq_of_toNat_eq he)
    have hlt := s.high.isLt
    exact ⟨hass, hcand, hone, by simp only; omega⟩

/-- Every step of a sequence keeps the invariant. -/
theorem SequenceStep.inv {s t : State} (h : SequenceStep s t) (hi : s.Inv) : t.Inv := by
  cases h with
  | sent a c hs hq => exact advance_inv ((inv_sent_iff _ s).2 hi) hq
  | unsent op a c => exact inv_of_idle rfl
  | scanAwait hp => exact scanAwait_inv hp hi
  | scanDone hp hn => exact hn
  | passStart hp => exact passStart_inv hp hi
  | searchTest hp => exact searchTest_inv hp hi
  | compareAwait hp => exact compareAwait_inv hp hi
  | passCheck hp => exact passCheck_inv hp hi

/-- A host operation leaves the block idle or at the start of a sequence. -/
theorem exec_idle_inv {i : Instr} {s t : State} (hp : s.phase = .idle) (h : exec i s = .next t) : t.Inv := by
  rcases exec_idle_cases hp h with ⟨r, rfl⟩ | ⟨a, c, rfl⟩ | rfl | rfl | rfl
  · exact inv_of_idle rfl
  · rcases issueFrame_cases a c s with ⟨-, hh⟩ | ⟨-, hh⟩ <;> rw [hh] <;> exact inv_of_idle rfl
  · rcases awaitFrame_cases s with ⟨r, hh⟩ | ⟨e, hh⟩ <;> rw [hh] <;> exact inv_of_idle rfl
  · exact ⟨rfl, rfl⟩
  · exact ⟨rfl, rfl⟩

theorem IdleStep.inv {s t : State} (h : IdleStep s t) (hp : s.phase = .idle) : t.Inv := by
  cases h with
  | wait => exact inv_of_idle hp
  | request _ _ ht => exact exec_idle_inv (by simpa using hp) ht

/-- Settles O44, by what a step can be: reset and the idle block's operations end where the invariant is immediate, and a
sequence step keeps it, the window's bounds by the midpoint lying strictly between them. -/
theorem stepKeepsInvariant : Obligations.StepKeepsInvariant := by
  unfold Obligations.StepKeepsInvariant
  intro s t hinv h
  rcases step_inversion h with ⟨-, rfl⟩ | ⟨hp, hi⟩ | ⟨-, hs⟩
  · exact inv_of_idle s.blockReset_phase
  · exact hi.inv hp
  · have htick : s.tick.Inv ↔ s.Inv := Iff.rfl
    exact hs.inv (htick.2 hinv)

/-- Settles O43: after reset the block is idle, and an idle block meets the invariant. -/
theorem resetMeetsInvariant : Obligations.ResetMeetsInvariant := inv_of_idle rfl

/-- Settles O52: the five fields are those of the reset state's definition (R37). -/
theorem resetState : Obligations.ResetState := ⟨rfl, rfl, rfl, rfl, rfl⟩

end Sys2Proof.Machine

namespace Sys2Proof.Machine

/-! ### Transport reads

A read is cut to the bytes asked for, whatever answers it (R52, R53). -/

theorem length_le_of_atMost {m : Nat} {o : ReadOutcome} {x : List Byte} (h : atMost m o = .bytes x) : x.length ≤ m := by
  cases o with
  | bytes y =>
    cases h
    exact List.length_take_le m y
  | timeout => cases h
  | fail => cases h

/-- What a read answers, listed, from the bus or free, has been cut to the bytes asked for. -/
theorem Env.nextRead_eq_atMost (m : Nat) (e : Env) : ∃ o, e.nextRead m = atMost m o := by
  unfold Env.nextRead
  split
  · exact ⟨_, rfl⟩
  · split
    · split
      · exact ⟨_, rfl⟩
      · exact ⟨.timeout, rfl⟩
    · exact ⟨_, rfl⟩

/-- Settles O21: whatever answers the read, `atMost` has cut it. -/
theorem readsBringAtMostWhatWasAsked : Obligations.ReadsBringAtMostWhatWasAsked := by
  unfold Obligations.ReadsBringAtMostWhatWasAsked
  intro e m x h
  obtain ⟨o, ho⟩ := e.nextRead_eq_atMost m
  exact length_le_of_atMost (ho.symm.trans h)

/-! ### The observation of a sequence step

What each kind of sequence step adds to the observation (R62, R152, R259). -/

/-- The step's own updates observe nothing, or the result of the operation's last step. -/
theorem advance_trace (s : State) : s.advance.trace = s.trace ∨ ∃ r, s.advance.trace = .returned r :: s.trace := by
  unfold State.advance
  cases s.phase with
  | scBon => exact .inr ⟨_, rfl⟩
  | cmBon => exact .inr ⟨_, rfl⟩
  | _ => exact .inl rfl

@[simp] theorem scanAnswer_trace (r : Response) (s : State) : (s.scanAnswer r).trace = s.trace := by cases r <;> rfl

@[simp] theorem compareAnswer_trace (r : Response) (s : State) : (s.compareAnswer r).trace = s.trace := by cases r <;> rfl

/-- The one error of COMMISSION's probe is a read fault (R153). -/
theorem probeCommission_eq_error {o : ReadOutcome} {e : ErrCode} (h : probeCommission o = .error e) :
    o = .fail ∧ e = .transportReadError := by
  rcases o with (_ | ⟨b, t⟩) | _ | _ <;> cases h
  exact ⟨rfl, rfl⟩

/-- Settles O48, by the kinds of sequence step: a frame sent or not, a probe's one read, or no call at all. -/
theorem sequenceStepMakesOneCall : Obligations.SequenceStepMakesOneCall := by
  unfold Obligations.SequenceStepMakesOneCall
  intro s t hr hp h
  have hstep := step_in_sequence (by simp [hr]) hp h
  rw [State.tick_of_no_reset hr] at hstep
  cases hstep with
  | sent a c _ _ hw =>
    rcases advance_trace (s.txWrite (pack (fwd a c))).settle with hh | ⟨r, hh⟩ <;> simp [hh, hw]
  | unsent op a c _ _ hw => simp [hw]
  | scanAwait => simp [State.scanAwait, bwdLen]
  | scanDone => simp [State.scanDone]
  | passStart => rcases passStart_cases s with ⟨-, hh⟩ | ⟨-, hh⟩ <;> simp [hh]
  | searchTest => rcases searchTest_cases s with ⟨-, hh⟩ | ⟨-, hh⟩ | ⟨-, hh⟩ <;> simp [hh]
  | compareAwait =>
    rcases compareAwait_cases s with ⟨r, -, hh⟩ | ⟨e, he, hh⟩
    · simp [hh, bwdLen]
    · obtain ⟨ho, rfl⟩ := probeCommission_eq_error he
      rw [bwdLen] at ho hh
      simp [hh, ho]
  | passCheck => rcases passCheck_cases s with ⟨-, hh⟩ | ⟨-, hh⟩ <;> simp [hh]

/-! ### The wired-AND bus

What the master receives of any number of answers (R66, R67), and that it never looks idle (R133). -/

@[simp] theorem length_bwd (r : Byte) : (bwd r).length = bwdLen := length_frameOf r

/-- Symbol by symbol, the wired-AND of whole frames is the AND of theirs (R66). -/
theorem wiredAnd_getElem? {fs : List (List Sym)} {j : Nat} (h : ∀ f ∈ fs, f.length = bwdLen) (hj : j < bwdLen) :
    (wiredAnd fs)[j]? = some (fs.all (fun f => f.getD j true)) := by
  induction fs with
  | nil => simp [wiredAnd, hj]
  | cons f t ih =>
    have hf : f[j]? = some (f.getD j true) := by simp [h f List.mem_cons_self, hj]
    have ht := ih fun g hg => h g (List.mem_cons_of_mem _ hg)
    have hcons : wiredAnd (f :: t) = List.zipWith (· && ·) f (wiredAnd t) := rfl
    rw [hcons, List.getElem?_zipWith, hf, ht, List.all_cons]

/-- Settles O19, by induction on the frames that answer. -/
theorem busIsWiredAnd : Obligations.BusIsWiredAnd := by
  unfold Obligations.BusIsWiredAnd
  intro rs j hj
  rw [wiredAnd_getElem? (by simp) hj, List.all_map]
  rfl

/-- A received answer: a whole backward frame that classifies `Responded` (R67, R133). -/
def Answered (reply : Option (List Byte)) : Prop := ∃ x, reply = some x ∧ x.length = 18 ∧ classify x = .responded

/-- However many devices answer, the second start symbol is low on the bus, so the master sees a response (R92, R133). -/
theorem classify_pack_wiredAnd {rs : List Byte} (h : rs ≠ []) : classify (pack (wiredAnd (rs.map bwd))) = .responded := by
  obtain ⟨r, t, rfl⟩ := List.exists_cons_of_ne_nil h
  have hlow : (wiredAnd ((r :: t).map bwd))[1]? = some false := by
    rw [wiredAnd_getElem? (by simp) (by decide)]
    simp [bwd, frameOf_eq]
  exact (classify_eq_responded_iff _).2 ⟨packSym false, List.mem_map_of_mem (List.mem_of_getElem? hlow), by decide⟩

theorem busReply_answered {rs : List Byte} (h : rs ≠ []) : Answered (busReply rs) := by
  obtain ⟨r, t, rfl⟩ := List.exists_cons_of_ne_nil h
  refine ⟨_, rfl, ?_, classify_pack_wiredAnd h⟩
  rw [length_pack, length_wiredAnd _ (by simp)]
  rfl

/-- One device that answers, whatever its status byte, is enough for an answer on the bus. -/
theorem answerAll_answered {n : Nat} {i : Instr} {ds : List Slave} {d : Slave} (hd : d ∈ ds)
    (h : ∀ status, slaveAnswer status i d ≠ none) : Answered (answerAll n (some i) ds) := by
  obtain ⟨j, hj⟩ := List.getElem?_of_mem hd
  obtain ⟨r, hr⟩ := Option.ne_none_iff_exists'.1 (h (Config.freeStatus n j))
  have hmem : some r ∈ ds.mapIdx fun j d => slaveAnswer (Config.freeStatus n j) i d :=
    List.mem_of_getElem? (i := j) (by simp [hj, hr])
  exact busReply_answered (List.ne_nil_of_mem (List.mem_filterMap.2 ⟨some r, hmem, rfl⟩))

/-- No device answers, so the bus holds nothing. -/
theorem answerAll_eq_none {n : Nat} {i : Instr} {ds : List Slave} (h : ∀ d ∈ ds, ∀ status, slaveAnswer status i d = none) :
    answerAll n (some i) ds = none := by
  have hnone : (ds.mapIdx fun j d => slaveAnswer (Config.freeStatus n j) i d).filterMap id = [] := by
    refine List.filterMap_eq_nil_iff.2 fun a ha => ?_
    obtain ⟨j, hj, rfl⟩ := List.mem_mapIdx.1 ha
    exact h _ (List.getElem_mem hj) _
  rw [answerAll, hnone, busReply]

/-- A COMPARE selects an active device whose long address is at most its search address (R73). -/
theorem slaveAnswer_compare_eq_none_iff (status : Byte) (d : Slave) :
    slaveAnswer status .compare d = none ↔ ¬ (d.init = true ∧ d.wd = false ∧ d.long ≤ d.sr) := by
  simp [slaveAnswer]

theorem slaveAnswer_queryStatus_eq_none_iff (status : Byte) (k : ShortAddr) (d : Slave) :
    slaveAnswer status (.queryStatus k) d = none ↔ d.short ≠ some k := by simp [slaveAnswer]

/-- No frame but COMPARE and QUERY_STATUS is answered (R69 to R72, R74 to R76, R78). -/
theorem slaveAnswer_eq_none {i : Instr} (hc : i ≠ .compare) (hq : ∀ k, i ≠ .queryStatus k) (status : Byte) (d : Slave) :
    slaveAnswer status i d = none := by
  cases i with
  | compare => exact absurd rfl hc
  | queryStatus k => exact absurd rfl (hq k)
  | _ => rfl

/-- A frame that draws no register before it acts is answered by the slaves as they stand. -/
theorem Bus.deliver_reply {b : Bus} {n : Nat} {i : Option Instr} (h : (b.seq.after i).2 ≠ .before) :
    (b.deliver n i).reply = answerAll n i b.slaves := by
  have hdraw : ((if b.search.after i = .lost then SrDraw.never else (b.seq.after i).2) == .before) = false := by
    split
    · rfl
    · exact beq_eq_false_iff_ne.2 h
  simp only [Bus.deliver, hdraw, corruptAll_false]

/-- A frame that draws registers before it acts is answered by the slaves so drawn. -/
theorem Bus.deliver_reply_of_before {b : Bus} {n : Nat} {i : Option Instr} (hl : b.search.after i ≠ .lost)
    (h : (b.seq.after i).2 = .before) : (b.deliver n i).reply = answerAll n i (corruptAll n true b.slaves) := by
  simp only [Bus.deliver, if_neg hl, h]
  rfl

/-- COMPARE frees the registers before it acts exactly when a whole address has been broken (R285). -/
theorem SearchSeq.compare_draw (q : SearchSeq) :
    q.compare.2 = if q.whole = true ∧ q ≠ .ready then .before else .never := by
  rw [q.compare_eq]
  cases q.whole <;> by_cases h : q = .ready <;> simp [h]

/-- Settles O58: on an address that nothing has broken, COMPARE draws no register, so exactly the devices it selects answer. -/
theorem compareIsAnsweredByActiveDevices : Obligations.CompareIsAnsweredByActiveDevices := by
  unfold Obligations.CompareIsAnsweredByActiveDevices
  intro b n hq
  have hdraw : (b.seq.after (some .compare)).2 ≠ .before := by
    have hnot : ¬ (b.seq.whole = true ∧ b.seq ≠ .ready) := by
      rcases hq with hq | hq <;> simp [hq]
    simp [SearchSeq.after, SearchSeq.compare_draw, if_neg hnot]
  rw [Bus.deliver_reply hdraw]
  refine ⟨fun ⟨d, hd, hsel⟩ => ?_, fun hno => ?_⟩
  · exact answerAll_answered hd fun _ hn => (slaveAnswer_compare_eq_none_iff _ d).1 hn hsel
  · exact answerAll_eq_none fun d hd _ => (slaveAnswer_compare_eq_none_iff _ d).2 (hno d hd)

/-! ### One slave and one frame

What a delivered frame makes of one slave while no search is lost (R69 to R77). -/

/-- A frame that frees no register acts on each slave and does nothing else to it, as long as no search is lost. -/
theorem Bus.deliver_slave {b : Bus} {n j : Nat} {d : Slave} {i : Instr} (hl : b.search ≠ .lost) (hj : b.slaves[j]? = some d)
    (hq : (b.seq.after (some i)).2 = .never) :
    (b.deliver n (some i)).slaves[j]? = some (slaveEffect (Config.freeLong n j) i d) :=
  Bus.deliver_slave_of_never hj (Search.after_ne_lost _ hl) hq

/-- Settles O57: the lamp and status frames draw nothing, so each slave is as the frame's own effect leaves it, and the bus holds
what the slaves answer. -/
theorem referenceLampsAndStatusAnswers : Obligations.ReferenceLampsAndStatusAnswers := by
  unfold Obligations.ReferenceLampsAndStatusAnswers
  refine ⟨fun b n j d k hl hj => ?_, fun b n k => ?_, fun b n i hc hq => ?_⟩
  · exact ⟨Bus.deliver_slave hl hj rfl, Bus.deliver_slave hl hj rfl, Bus.deliver_slave hl hj rfl,
      Bus.deliver_slave hl hj rfl, Bus.deliver_slave hl hj rfl, Bus.deliver_slave hl hj rfl⟩
  · have hdraw : (b.seq.after (some (.queryStatus k))).2 ≠ .before := nofun
    rw [Bus.deliver_reply hdraw]
    refine ⟨fun ⟨e, he, hk⟩ => ?_, fun hno => ?_⟩
    · exact answerAll_answered he fun _ hn => (slaveAnswer_queryStatus_eq_none_iff _ k e).1 hn hk
    · exact answerAll_eq_none fun e he _ => (slaveAnswer_queryStatus_eq_none_iff _ k e).2 (hno e he)
  · cases i with
    | none => rfl
    | some f =>
      exact answerAll_eq_none fun d _ status =>
        slaveAnswer_eq_none (fun h => hc (by rw [h])) (fun k h => hq k (by rw [h])) status d

/-- PROGRAM_SHORT and WITHDRAW draw nothing unless a whole address holds an outdated byte. -/
theorem SearchSeq.select_draw_of_current {q : SearchSeq} (h : q.whole = false ∨ q.mid ≠ .stale ∧ q.low ≠ .stale) :
    q.select.2 = .never := by
  rw [q.select_eq]
  rcases h with h | ⟨hm, hlow⟩
  · simp [h]
  · have hout : q.outdated = false := by simp [SearchSeq.outdated, hm, hlow]
    cases q.whole <;> simp [hout]

/-- A record that keeps the frames apart gives no other broadcast or special frame PROGRAM_SHORT's address byte. -/
theorem programShort_notMem_addresses {cmd : Cmd} (h : cmd.distinct = true) :
    cmd.programShort ∉ [cmd.bcast, cmd.terminate, cmd.initialise, cmd.randomise, cmd.compare, cmd.withdraw, cmd.searchaddrh,
      cmd.searchaddrm, cmd.searchaddrl] := by
  simp only [Cmd.distinct, Bool.and_eq_true, decide_eq_true_eq] at h
  obtain ⟨⟨⟨haddresses, -⟩, -⟩, -⟩ := h
  refine ((List.nodup_concat _ _).1 ?_).1
  exact haddresses

theorem decodePair_programShort {cmd : Cmd} (h : cmd.distinct = true) (t : Byte) :
    decodePair cmd cmd.programShort t =
      if isShortForm t then .ok (.programShort (shortField t)) else .error .noSuchFrame := by
  have hne := programShort_notMem_addresses h
  simp only [List.mem_cons, List.not_mem_nil, or_false, not_or] at hne
  simp [decodePair, hne]

/-- PROGRAM_SHORT reaches the slaves with any data byte (R74). -/
theorem slaveFrame_programShort {cmd : Cmd} (h : cmd.distinct = true) (t : Byte) :
    slaveFrame cmd (cmd.programShort ++ t) = some (.programShort (shortField t)) := by
  have ha : (cmd.programShort ++ t).extractLsb' 8 8 = cmd.programShort := BitVec.extractLsb'_append_eq_left
  have hc : (cmd.programShort ++ t).extractLsb' 0 8 = t := BitVec.extractLsb'_append_eq_right
  simp only [slaveFrame, decodeFrame, ha, hc, decodePair_programShort h]
  cases isShortForm t <;> simp

/-- Settles O54: outside a lost search each of the frames draws nothing under the clause's premise, so the slave is as the frame's
own effect leaves it. -/
theorem referenceSlavesFollowFrames : Obligations.ReferenceSlavesFollowFrames := by
  unfold Obligations.ReferenceSlavesFollowFrames
  refine ⟨fun b n j d v k hj => ⟨?_, fun hl => ⟨?_, ?_, fun hh hlow => ?_, fun hh hm => ?_, fun hsel => ?_, ?_⟩⟩, ?_⟩
  · exact Bus.deliver_slave_of_never hj (by simp) rfl
  · exact Bus.deliver_slave hl hj rfl
  · exact Bus.deliver_slave hl hj rfl
  · exact Bus.deliver_slave hl hj (by simp [SearchSeq.after, SearchSeq.sendMid_draw, hh, hlow])
  · exact Bus.deliver_slave hl hj (by simp [SearchSeq.after, SearchSeq.sendLow_draw, hh, hm])
  · have hdraw := SearchSeq.select_draw_of_current hsel
    exact ⟨Bus.deliver_slave hl hj hdraw, Bus.deliver_slave hl hj hdraw⟩
  · exact Bus.deliver_slave hl hj rfl
  · exact fun cmd t h => slaveFrame_programShort h t

/-! ### Interruptions

What an interruption or a partial write leaves of the slaves, and which frames open and close a search (R78, R289). -/

/-- A frame not wholly written leaves the slaves a draw (93 U9). -/
theorem Bus.afterWrite_of_incomplete {o : WriteOutcome} (cmd : Cmd) (n : Nat) (x : List Byte) (b : Bus) (h : o ≠ .written 34) :
    b.afterWrite cmd n x o = b.disturb n := by
  simp [Bus.afterWrite, (writeComplete_eq_false_iff o).2 h]

theorem Bus.disturb_getElem? {b : Bus} {n j : Nat} {d : Slave} (hj : b.slaves[j]? = some d) :
    (b.disturb n).slaves[j]? = some (Config.freeSlave n j) := by simp [Bus.disturb, hj]

/-- What a frame does to one slave; a frame of no effect leaves it. -/
def frameEffect (drawn : U24) (i : Option Instr) (d : Slave) : Slave := i.elim d (slaveEffect drawn · d)

theorem actAll_getElem?_frameEffect {n j : Nat} {ds : List Slave} {d : Slave} (i : Option Instr) (hj : ds[j]? = some d) :
    (actAll n i ds)[j]? = some (frameEffect (Config.freeLong n j) i d) := by
  cases i with
  | none => exact hj
  | some f => exact actAll_getElem? f hj

/-- The bus frames that leave a search as it is: those of no search, but TERMINATE. -/
theorem Search.after_of_not_searches {q : Search} {i : Option Instr} (hs : i.any searches = false) (ht : i ≠ some .terminate) :
    q.after i = q := by
  have hi : i ≠ some .initialise := by rintro rfl; exact absurd hs (by decide)
  cases q <;> simp [Search.after, hi, ht, hs]

theorem Search.after_terminate {q : Search} (h : q ≠ .lost) : q.after (some .terminate) = .closed := by
  simp [Search.after, h]

theorem Bus.inSearch_iff (b : Bus) : b.inSearch = true ↔ b.search ≠ .closed ∨ b.seq ≠ .idle := by simp [Bus.inSearch]

theorem Env.cutHostSearch_of_inSearch {e : Env} {b : Bus} (hb : e.bus = some b) (h : b.inSearch = true) :
    e.cutHostSearch = e.interrupt := by simp [Env.cutHostSearch, hb, h]

theorem Env.cutHostSearch_of_not_inSearch {e : Env} {b : Bus} (hb : e.bus = some b) (h : b.inSearch = false) :
    e.cutHostSearch = e := by simp [Env.cutHostSearch, hb, h]

/-- Settles O56: an interruption and a partial write draw every slave, a lost search stays lost until INITIALISE and each frame
ends with the draw, and the frames move the search as `Search.after` says. -/
theorem interruptedSearchStaysFree : Obligations.InterruptedSearchStaysFree := by
  unfold Obligations.InterruptedSearchStaysFree
  refine ⟨fun b n j d hj => ⟨rfl, rfl, loseAll_getElem? hj⟩, fun b cmd n j d x o hj ho => ?_,
    fun b n j d d' i hl hi hj hd' => ?_, fun b n => Search.after_initialise b.search,
    fun b n i hl => ⟨fun h => ?_, fun h => ?_, ?_⟩, fun e b hb => ⟨fun h => ?_, fun hs hq => ?_⟩⟩
  · rw [Bus.afterWrite_of_incomplete cmd n x b ho]
    exact ⟨rfl, rfl, Bus.disturb_getElem? hj, rfl⟩
  · have hlost : b.search.after i = .lost := by rw [hl, Search.after_lost hi]
    have heffect : d' = frameEffect (Config.freeLong n j) i d := by
      rcases hd' with ⟨rfl, rfl⟩ | ⟨f, rfl, rfl⟩ <;> rfl
    rw [Bus.deliver_search, Bus.deliver_slaves_lost i hlost, heffect]
    exact ⟨hlost, loseAll_getElem? (actAll_getElem?_frameEffect i hj)⟩
  · have hs : ∃ f, i = some f ∧ searches f = true := by
      rcases h with h | ⟨v, rfl | rfl | rfl⟩ | ⟨k, rfl⟩
      · fin_cases h <;> exact ⟨_, rfl, rfl⟩
      all_goals exact ⟨_, rfl, rfl⟩
    obtain ⟨f, rfl, hf⟩ := hs
    exact Search.after_searches hf hl
  · have hs : i.any searches = false ∧ i ≠ some .terminate := by
      rcases h with rfl | h | ⟨k, rfl | rfl | rfl⟩
      · exact ⟨rfl, nofun⟩
      · fin_cases h <;> exact ⟨rfl, nofun⟩
      all_goals exact ⟨rfl, nofun⟩
    exact Search.after_of_not_searches hs.1 hs.2
  · exact Search.after_terminate hl
  · exact Env.cutHostSearch_of_inSearch hb (b.inSearch_iff.2 h)
  · exact Env.cutHostSearch_of_not_inSearch hb (by simp [Bus.inSearch, hs, hq])

/-! ### Search addresses

How each frame moves the search address under way, and what it makes of the registers (R72, R285, 93 U1). -/

/-- Other traffic to a search address: a frame that is none of its bytes, and COMPARE, PROGRAM_SHORT or WITHDRAW before all three
have come (R285; log entry 12). -/
def OtherTraffic (q : SearchSeq) (i : Option Instr) : Prop :=
  i = none ∨ i ∈ [Instr.bcReset, .bcOff, .bcOn, .initialise, .randomise, .terminate].map some ∨
    (∃ k, i = some (.queryStatus k) ∨ i = some (.saOn k) ∨ i = some (.saOff k)) ∨
    q.whole = false ∧ (i = some .compare ∨ i = some .withdraw ∨ ∃ k, i = some (.programShort k))

theorem SearchSeq.finish_of_part {q : SearchSeq} (spoilt : Bool) (h : q.whole = false) :
    q.finish spoilt = (q.split, .never) := by simp [SearchSeq.finish, h]

/-- Other traffic marks the bytes that have come and draws no register (R285). -/
theorem SearchSeq.after_otherTraffic {q : SearchSeq} {i : Option Instr} (h : OtherTraffic q i) :
    q.after i = (q.split, .never) := by
  rcases h with rfl | h | ⟨k, h⟩ | ⟨hpart, h⟩
  · rfl
  · fin_cases h <;> rfl
  · rcases h with rfl | rfl | rfl <;> rfl
  · rcases h with rfl | rfl | ⟨k, rfl⟩ <;> exact SearchSeq.finish_of_part _ hpart

/-- Only the search-address frames write the search-address register (R72). -/
theorem slaveEffect_sr {i : Instr} (hh : ∀ v, i ≠ .searchaddrh v) (hm : ∀ v, i ≠ .searchaddrm v)
    (hlow : ∀ v, i ≠ .searchaddrl v) (drawn : U24) (d : Slave) : (slaveEffect drawn i d).sr = d.sr := by
  cases i with
  | searchaddrh v => exact absurd rfl (hh v)
  | searchaddrm v => exact absurd rfl (hm v)
  | searchaddrl v => exact absurd rfl (hlow v)
  | randomise =>
    simp only [slaveEffect, randomiseSlave]
    repeat' split
    all_goals rfl
  | _ =>
    simp only [slaveEffect]
    repeat' split
    all_goals rfl

theorem frameEffect_sr_of_otherTraffic {q : SearchSeq} {i : Option Instr} (h : OtherTraffic q i) (drawn : U24) (d : Slave) :
    (frameEffect drawn i d).sr = d.sr := by
  cases i with
  | none => rfl
  | some f => refine slaveEffect_sr ?_ ?_ ?_ drawn d <;> rintro v rfl <;> simp [OtherTraffic] at h

/-- Other traffic leaves every search-address register as it is, while no search is lost. -/
theorem Bus.deliver_sr_of_otherTraffic {b : Bus} {n j : Nat} {d d' : Slave} {i : Option Instr} (h : OtherTraffic b.seq i)
    (hl : b.search ≠ .lost) (hj : b.slaves[j]? = some d) (hj' : (b.deliver n i).slaves[j]? = some d') : d'.sr = d.sr := by
  have hslaves : (b.deliver n i).slaves = actAll n i b.slaves := by
    rw [Bus.deliver_slaves i (Search.after_ne_lost i hl), SearchSeq.after_otherTraffic h]
    rfl
  rw [hslaves, actAll_getElem?_frameEffect i hj] at hj'
  cases hj'
  exact frameEffect_sr_of_otherTraffic h _ d

/-- SEARCHADDRM counts as come, among bytes from before other traffic as such a byte itself (R285). -/
theorem SearchSeq.sendMid_seq (q : SearchSeq) :
    q.sendMid.1 = { q with mid := if q.high = .left ∨ q.low = .left then .left else .sent } := by
  obtain ⟨a, b, c⟩ := q
  cases a <;> cases c <;> rfl

/-- SEARCHADDRL, as SEARCHADDRM. -/
theorem SearchSeq.sendLow_seq (q : SearchSeq) :
    q.sendLow.1 = { q with low := if q.high = .left ∨ q.mid = .left then .left else .sent } := by
  obtain ⟨a, b, c⟩ := q
  cases a <;> cases b <;> rfl

/-- 93 U1 reaches the active devices only (R234). -/
theorem corruptSr_eq (c d : Slave) : corruptSr c d = if d.init = true ∧ d.wd = false then { d with sr := c.sr } else d := by
  simp [corruptSr]

theorem mem_corruptAll {n : Nat} {ds : List Slave} {d : Slave} (h : d ∈ corruptAll n true ds) :
    ∃ j e, ds[j]? = some e ∧ d = corruptSr (Config.freeSlave n j) e := by
  obtain ⟨j, hj, rfl⟩ := List.mem_mapIdx.1 h
  exact ⟨j, ds[j], List.getElem?_eq_getElem hj, rfl⟩

/-- A drawn register decides whether an active device is selected (R73, 93 U1). -/
theorem corruptSr_selected_iff (c d : Slave) :
    ((corruptSr c d).init = true ∧ (corruptSr c d).wd = false ∧ (corruptSr c d).long ≤ (corruptSr c d).sr) ↔
      d.init = true ∧ d.wd = false ∧ d.long ≤ c.sr := by
  rw [corruptSr_eq]
  split
  next h => simp
  next h => exact ⟨fun ⟨hi, hw, _⟩ => absurd ⟨hi, hw⟩ h, fun ⟨hi, hw, _⟩ => absurd ⟨hi, hw⟩ h⟩

/-- A byte frame that draws the register after it has acted leaves an active device the draw, whatever byte it stored. -/
theorem Bus.deliver_slave_drawn {b : Bus} {n j : Nat} {d : Slave} {i : Instr} {x : U24} (hl : b.search ≠ .lost)
    (hj : b.slaves[j]? = some d) (heffect : slaveEffect (Config.freeLong n j) i d = { d with sr := x })
    (hq : (b.seq.after (some i)).2 = .after) (hi : d.init = true) (hw : d.wd = false) :
    (b.deliver n (some i)).slaves[j]? = some { d with sr := (Config.freeSlave n j).sr } := by
  rw [Bus.deliver_slave_of_after hj (Search.after_ne_lost _ hl) hq, heffect, corruptSr_eq]
  exact congrArg some (if_pos ⟨hi, hw⟩)

/-- A byte frame stores its byte where it draws nothing, and in a withdrawn device always. -/
theorem Bus.deliver_slave_stored {b : Bus} {n j : Nat} {d : Slave} {i : Instr} {x : U24} {broken : Prop} [Decidable broken]
    (hl : b.search ≠ .lost) (hj : b.slaves[j]? = some d)
    (heffect : slaveEffect (Config.freeLong n j) i d = { d with sr := x })
    (hq : (b.seq.after (some i)).2 = if broken then .after else .never) (h : d.wd = true ∨ ¬ broken) :
    (b.deliver n (some i)).slaves[j]? = some { d with sr := x } := by
  by_cases hb : broken
  · have hw : d.wd = true := h.resolve_right (not_not_intro hb)
    rw [if_pos hb] at hq
    rw [Bus.deliver_slave_of_after hj (Search.after_ne_lost _ hl) hq, heffect, corruptSr_eq]
    exact congrArg some (if_neg (by simp [hw]))
  · rw [if_neg hb] at hq
    rw [Bus.deliver_slave hl hj hq, heffect]

theorem slaveEffect_searchaddrh {d : Slave} (hi : d.init = true) (drawn : U24) (v : Byte) :
    slaveEffect drawn (.searchaddrh v) d = { d with sr := setHighByte v d.sr } := if_pos hi
theorem slaveEffect_searchaddrm {d : Slave} (hi : d.init = true) (drawn : U24) (v : Byte) :
    slaveEffect drawn (.searchaddrm v) d = { d with sr := setMidByte v d.sr } := if_pos hi
theorem slaveEffect_searchaddrl {d : Slave} (hi : d.init = true) (drawn : U24) (v : Byte) :
    slaveEffect drawn (.searchaddrl v) d = { d with sr := setLowByte v d.sr } := if_pos hi

/-- Three search-address frames in a row store their address in every device in addressing mode (R72). -/
theorem Bus.deliver_searchAddress {b : Bus} {n₁ n₂ n₃ j : Nat} {d : Slave} (h m l : Byte) (hl : b.search ≠ .lost)
    (hj : b.slaves[j]? = some d) (hi : d.init = true) :
    let b' := ((b.deliver n₁ (some (.searchaddrh h))).deliver n₂ (some (.searchaddrm m))).deliver n₃ (some (.searchaddrl l))
    b'.seq = .ready ∧ b'.slaves[j]? = some { d with sr := h ++ m ++ l } := by
  obtain ⟨hmid, hlow⟩ := b.seq.high_mid_low
  have hl₁ := Search.after_ne_lost (some (.searchaddrh h)) hl
  have hl₂ := Search.after_ne_lost (some (.searchaddrm m)) hl₁
  have h₁ := Bus.deliver_slave (n := n₁) (i := .searchaddrh h) hl hj rfl
  rw [slaveEffect_searchaddrh hi] at h₁
  have h₂ := Bus.deliver_slave (n := n₂) (i := .searchaddrm m) hl₁ h₁ hmid
  rw [slaveEffect_searchaddrm (by exact hi)] at h₂
  have h₃ := Bus.deliver_slave (n := n₃) (i := .searchaddrl l) hl₂ h₂ (congrArg Prod.snd hlow)
  rw [slaveEffect_searchaddrl (by exact hi), setLowByte_setMidByte_setHighByte] at h₃
  exact ⟨congrArg Prod.fst hlow, h₃⟩

/-- COMPARE of a whole address that other traffic has broken frees the registers before it acts (R285). -/
theorem SearchSeq.compare_of_broken {q : SearchSeq} (hw : q.whole = true) (hr : q ≠ .ready) : q.compare.2 = .before := by
  rw [q.compare_draw, if_pos ⟨hw, hr⟩]

/-- PROGRAM_SHORT and WITHDRAW of a whole address with an outdated byte free the registers before they act. -/
theorem SearchSeq.select_of_outdated {q : SearchSeq} (hw : q.whole = true) (ho : q.mid = .stale ∨ q.low = .stale) :
    q.select.2 = .before := by
  have hout : q.outdated = true := by simpa [SearchSeq.outdated] using ho
  simp [SearchSeq.select_eq, hw, hout]

/-- COMPARE of a broken whole address: the active devices take the draw, and those it selects answer (93 U1). -/
theorem Bus.deliver_compare_of_broken {b : Bus} {n : Nat} (hl : b.search ≠ .lost) (hw : b.seq.whole = true)
    (hr : b.seq ≠ .ready) :
    (∀ (j : Nat) (d : Slave), b.slaves[j]? = some d →
      (b.deliver n (some .compare)).slaves[j]? = some (corruptSr (Config.freeSlave n j) d)) ∧
    (b.deliver n (some .compare)).reply = answerAll n (some .compare) (corruptAll n true b.slaves) := by
  have hl' := Search.after_ne_lost (some .compare) hl
  have hdraw : (b.seq.after (some .compare)).2 = .before := SearchSeq.compare_of_broken hw hr
  exact ⟨fun j d hj => Bus.deliver_slave_of_before hj hl' hdraw, Bus.deliver_reply_of_before hl' hdraw⟩

/-- PROGRAM_SHORT and WITHDRAW of a whole address with an outdated byte act on the drawn register of an active device. -/
theorem Bus.deliver_select_of_outdated {b : Bus} {n j : Nat} {d : Slave} {i : Instr} (hl : b.search ≠ .lost)
    (hj : b.slaves[j]? = some d) (hi : d.init = true) (hwd : d.wd = false) (hq : (b.seq.after (some i)).2 = .before) :
    (b.deliver n (some i)).slaves[j]? =
      some (slaveEffect (Config.freeLong n j) i { d with sr := (Config.freeSlave n j).sr }) := by
  rw [Bus.deliver_slave_of_before hj (Search.after_ne_lost _ hl) hq, corruptSr_eq, if_pos ⟨hi, hwd⟩]

/-- Settles O55, clause by clause: the address in a row, other traffic, the ages of the bytes, the draw after a byte, the draw
before a COMPARE, the draw before a selection, and the end of a whole address. -/
theorem searchAddressIsStoredOnlyUninterrupted : Obligations.SearchAddressIsStoredOnlyUninterrupted := by
  unfold Obligations.SearchAddressIsStoredOnlyUninterrupted
  refine ⟨fun b n₁ n₂ n₃ j d h m l hl hj hi => ⟨_, rfl, Bus.deliver_searchAddress h m l hl hj hi⟩,
    fun b n i h => ⟨?_, fun hl j d d' hj hj' => Bus.deliver_sr_of_otherTraffic h hl hj hj'⟩,
    fun b n v => ⟨rfl, b.seq.sendMid_seq, b.seq.sendLow_seq⟩, fun b n j d v hl hj hi => ?_, fun b n hl hw hr => ?_,
    fun b n j d k hl hj hi hwd hw ho => ?_, fun b n k hw => ?_⟩
  · rw [Bus.deliver_seq, SearchSeq.after_otherTraffic h]
    rfl
  · have hmid := slaveEffect_searchaddrm hi (Config.freeLong n j) v
    have hlow := slaveEffect_searchaddrl hi (Config.freeLong n j) v
    refine ⟨fun hwd hb => ?_, fun hwd hb => ?_, fun hb => ?_, fun hb => ?_⟩
    · exact Bus.deliver_slave_drawn hl hj hmid (b.seq.sendMid_draw.trans (if_pos hb)) hi hwd
    · exact Bus.deliver_slave_drawn hl hj hlow (b.seq.sendLow_draw.trans (if_pos hb)) hi hwd
    · exact Bus.deliver_slave_stored hl hj hmid b.seq.sendMid_draw (hb.imp_right not_or.2)
    · exact Bus.deliver_slave_stored hl hj hlow b.seq.sendLow_draw (hb.imp_right not_or.2)
  · obtain ⟨hslaves, hreply⟩ := Bus.deliver_compare_of_broken (n := n) hl hw hr
    rw [hreply]
    refine ⟨fun j d hj => by rw [hslaves j d hj, corruptSr_eq], fun ⟨j, d, hj, hsel⟩ => ?_, fun hno => ?_⟩
    · exact answerAll_answered (List.mem_of_getElem? (corruptAll_getElem? hj)) fun _ hn =>
        (slaveAnswer_compare_eq_none_iff _ _).1 hn ((corruptSr_selected_iff _ d).2 hsel)
    · refine answerAll_eq_none fun e he _ => (slaveAnswer_compare_eq_none_iff _ e).2 ?_
      obtain ⟨j, d, hj, rfl⟩ := mem_corruptAll he
      rw [corruptSr_selected_iff]
      exact hno j d hj
  · have hdraw := SearchSeq.select_of_outdated hw ho
    rw [Bus.deliver_select_of_outdated (i := .programShort k) hl hj hi hwd hdraw,
      Bus.deliver_select_of_outdated (i := .withdraw) hl hj hi hwd hdraw]
    by_cases hsel : d.long = (Config.freeSlave n j).sr <;> simp [slaveEffect, hi, hwd, hsel]
  · simp [SearchSeq.after, SearchSeq.compare_eq, SearchSeq.select_eq, hw]

end Sys2Proof.Machine

namespace Sys2Proof

/-! ### The two encodings

The host request word is its three fields and the frame pair its two bytes (R93, R106); the short-address form is read back from
the byte it is written to (R99, R103, R104). -/

/-- The token is the short-address byte of the same address (R104). -/
theorem tok_eq_sa (k : ShortAddr) : tok k = sa k := by revert k; decide

theorem tok_eq_append (k : ShortAddr) : tok k = 0#1 ++ k ++ 1#1 := by revert k; decide

theorem tok_toNat (k : ShortAddr) : (tok k).toNat = 1 + 2 * k.toNat := by
  have hk := k.isLt
  simp only [tok, BitVec.zeroExtend_eq_setWidth, BitVec.toNat_add, BitVec.toNat_ofNat, BitVec.toNat_shiftLeft,
    BitVec.toNat_setWidth, Nat.shiftLeft_eq]
  omega

theorem tok_eq_ofNat (k : ShortAddr) : tok k = BitVec.ofNat 8 (1 + 2 * k.toNat) := by
  rw [← tok_toNat, BitVec.ofNat_toNat, BitVec.setWidth_eq]

theorem sa_eq_ofNat (k : ShortAddr) : sa k = BitVec.ofNat 8 (1 + 2 * k.toNat) := by rw [← tok_eq_sa, tok_eq_ofNat]

@[simp] theorem isShortForm_sa (k : ShortAddr) : isShortForm (sa k) = true := by revert k; decide

@[simp] theorem shortField_sa (k : ShortAddr) : shortField (sa k) = k := by revert k; decide

/-- A byte of the short-address form is the short-address byte of its address field (R99). -/
theorem sa_shortField {a : Byte} (h : isShortForm a = true) : sa (shortField a) = a := by revert a; decide

@[simp] theorem opField_requestWord (op : BitVec 3) (a c : Byte) : opField (requestWord op a c) = op := by
  rw [opField, requestWord, BitVec.extractLsb'_append_eq_of_le (by decide)]
  exact BitVec.extractLsb'_append_eq_left

@[simp] theorem aField_requestWord (op : BitVec 3) (a c : Byte) : aField (requestWord op a c) = a := by
  rw [aField, requestWord, BitVec.extractLsb'_append_eq_of_le (by decide)]
  exact BitVec.extractLsb'_append_eq_right

@[simp] theorem cField_requestWord (op : BitVec 3) (a c : Byte) : cField (requestWord op a c) = c :=
  BitVec.extractLsb'_append_eq_right

/-- A request word is its three fields put together (R106). -/
theorem requestWord_of_fields {w : BitVec 19} {op : BitVec 3} {a c : Byte} (hop : opField w = op) (ha : aField w = a)
    (hc : cField w = c) : requestWord op a c = w := by
  subst hop ha hc
  have hupper : opField w ++ aField w = w.extractLsb' 8 11 := BitVec.extractLsb'_append_extractLsb'_eq_extractLsb' rfl
  rw [requestWord, hupper]
  exact BitVec.extractLsb'_append_extractLsb'

/-- A reserved request word is its operation code and its sixteen other bits (R107). -/
theorem reservedWord_of_opField {w : BitVec 19} (h : opField w = 7) : 7#3 ++ w.extractLsb' 0 16 = w := by
  rw [show 7#3 = opField w from h.symm]
  exact BitVec.extractLsb'_append_extractLsb'

/-- A frame word is read as the pair it was put together from (R93). -/
@[simp] theorem decodeFrame_append (cmd : Cmd) (a c : Byte) : decodeFrame cmd (a ++ c) = decodePair cmd a c := by
  rw [decodeFrame, BitVec.extractLsb'_append_eq_left, BitVec.extractLsb'_append_eq_right]

/-! ### Host request words

Every operation is read back from its word, and every word that decodes is the word of its operation (R106, R107). -/

theorem bareRequest_eq_ok_iff {i j : Instr} {w : BitVec 19} :
    bareRequest i w = .ok j ↔ (aField w = 0 ∧ cField w = 0) ∧ i = j := by
  unfold bareRequest
  split
  next h => simp [h]
  next h => simp only [h, false_and, reduceCtorEq]

theorem opField_eq_seven {op : BitVec 3} :
    op ≠ 0 → op ≠ 1 → op ≠ 2 → op ≠ 3 → op ≠ 4 → op ≠ 5 → op ≠ 6 → op = 7 := by
  bv_omega

/-- The operation code 7 is read as the reserved instruction, whatever the sixteen other bits are (R107). -/
theorem decodeRequest_reserved {w : BitVec 19} (h : opField w = 7) :
    decodeRequest w = .ok (.reservedOp7 (w.extractLsb' 0 16)) := by
  simp [decodeRequest, h]

theorem decodeRequest_decode {w : BitVec 19} (h : opField w = 2) :
    decodeRequest w = if aField w = 0 then .ok (.decode (cField w)) else .error .mustBeZero := by
  simp [decodeRequest, h]

/-- CLASSIFY, AWAIT, SCAN and COMMISSION are read only with both fields 0 (R107). -/
theorem decodeRequest_bare {w : BitVec 19} (h : opField w ∈ [1#3, 4#3, 5#3, 6#3]) :
    ∃ i, decodeRequest w = bareRequest i w := by
  simp only [List.mem_cons, List.not_mem_nil, or_false] at h
  rcases h with h | h | h | h
  · exact ⟨.classify, by simp [decodeRequest, h]⟩
  · exact ⟨.await, by simp [decodeRequest, h]⟩
  · exact ⟨.scan, by simp [decodeRequest, h]⟩
  · exact ⟨.commission, by simp [decodeRequest, h]⟩

theorem decode_encode_of_request {cmd : Cmd} {i : Instr} (h : framePair cmd i = none) :
    decode cmd (encode cmd i) = .ok i := by
  cases i <;> simp only [framePair, reduceCtorEq] at h
  case reservedOp7 x =>
    have hop : opField (7#3 ++ x) = 7 := BitVec.extractLsb'_append_eq_left
    have hx : (7#3 ++ x).extractLsb' 0 16 = x := BitVec.extractLsb'_append_eq_right
    exact (decodeRequest_reserved hop).trans (by rw [hx])
  all_goals simp [decode, encode, decodeRequest, bareRequest]

theorem encode_of_bareRequest {cmd : Cmd} {w : BitVec 19} {i j : Instr} (h : bareRequest i w = .ok j)
    (hi : encode cmd i = .request (requestWord (opField w) 0 0)) : encode cmd j = .request w := by
  obtain ⟨⟨ha, hc⟩, rfl⟩ := bareRequest_eq_ok_iff.1 h
  rw [hi, requestWord_of_fields rfl ha hc]

/-- A request word that decodes is the word of what it decodes to: the operation code selects the case, and the fields it reads or
wants 0 are all the rest of the word. -/
theorem encode_of_decodeRequest {cmd : Cmd} {w : BitVec 19} {i : Instr} (h : decodeRequest w = .ok i) :
    encode cmd i = .request w := by
  unfold decodeRequest at h
  split_ifs at h with h0 h1 h2 ha h3 h4 h5 h6
  · cases h
    exact congrArg Code.request (requestWord_of_fields h0 rfl rfl)
  · exact encode_of_bareRequest h (by rw [h1]; rfl)
  · cases h
    exact congrArg Code.request (requestWord_of_fields h2 ha rfl)
  · cases h
    exact congrArg Code.request (requestWord_of_fields h3 rfl rfl)
  · exact encode_of_bareRequest h (by rw [h4]; rfl)
  · exact encode_of_bareRequest h (by rw [h5]; rfl)
  · exact encode_of_bareRequest h (by rw [h6]; rfl)
  · cases h
    exact congrArg Code.request (reservedWord_of_opField (opField_eq_seven h0 h1 h2 h3 h4 h5 h6))

/-! ### Frame pairs

A pair is read as the frame it is sent for when the record keeps the frames apart, and only as a frame with that pair (R99 to
R104, R113). -/

theorem fixedData_eq_ok_iff {i j : Instr} {want c : Byte} : fixedData i want c = .ok j ↔ c = want ∧ i = j := by
  unfold fixedData
  split <;> simp [*]

/-- The broadcast and special address bytes of a record (R99). -/
def Cmd.addresses (cmd : Cmd) : List Byte :=
  [cmd.bcast, cmd.terminate, cmd.initialise, cmd.randomise, cmd.compare, cmd.withdraw, cmd.searchaddrh, cmd.searchaddrm,
    cmd.searchaddrl, cmd.programShort]

theorem Cmd.distinct_iff (cmd : Cmd) :
    cmd.distinct = true ↔ cmd.addresses.Nodup ∧ (∀ a ∈ cmd.addresses, isShortForm a = false) ∧
      [cmd.reset, cmd.off, cmd.on].Nodup ∧ [cmd.queryStatus, cmd.off, cmd.on].Nodup := by
  simp only [Cmd.distinct, Cmd.addresses, Bool.and_eq_true, decide_eq_true_eq, List.all_eq_true, Bool.not_eq_true', and_assoc]

/-- The special frames by their address byte: none is taken for another's (R102). -/
theorem decodePair_special {cmd : Cmd} (h : cmd.distinct = true) (c : Byte) :
    decodePair cmd cmd.initialise c = fixedData .initialise cmd.initData c ∧
    decodePair cmd cmd.randomise c = fixedData .randomise cmd.nodata c ∧
    decodePair cmd cmd.searchaddrh c = .ok (.searchaddrh c) ∧
    decodePair cmd cmd.searchaddrm c = .ok (.searchaddrm c) ∧
    decodePair cmd cmd.searchaddrl c = .ok (.searchaddrl c) ∧
    decodePair cmd cmd.compare c = fixedData .compare cmd.nodata c ∧
    decodePair cmd cmd.withdraw c = fixedData .withdraw cmd.nodata c ∧
    decodePair cmd cmd.terminate c = fixedData .terminate cmd.nodata c := by
  have hne := (cmd.distinct_iff.1 h).1
  have hne' := List.nodup_reverse.2 hne
  simp only [Cmd.addresses, List.reverse_cons, List.reverse_nil, List.nil_append, List.cons_append, List.nodup_cons,
    List.mem_cons, List.not_mem_nil, or_false, not_or] at hne hne'
  simp [decodePair, hne, hne']

/-- No broadcast or special address byte has the short-address form, so the short addresses are read as themselves (R99, R103). -/
theorem decodePair_sa {cmd : Cmd} (h : cmd.distinct = true) (k : ShortAddr) (c : Byte) :
    decodePair cmd (sa k) c = decodeShort cmd k c := by
  obtain ⟨-, hlong, -⟩ := cmd.distinct_iff.1 h
  have hne : ∀ a ∈ cmd.addresses, sa k ≠ a := by
    rintro a ha rfl
    simpa using hlong _ ha
  simp only [Cmd.addresses, List.forall_mem_cons] at hne
  simp [decodePair, hne]

theorem decodeBroadcast_of_distinct {cmd : Cmd} (h : cmd.distinct = true) :
    decodeBroadcast cmd cmd.reset = .ok .bcReset ∧ decodeBroadcast cmd cmd.off = .ok .bcOff ∧
    decodeBroadcast cmd cmd.on = .ok .bcOn := by
  obtain ⟨-, -, hne, -⟩ := cmd.distinct_iff.1 h
  have hne' : (cmd.on ≠ cmd.off ∧ cmd.on ≠ cmd.reset) ∧ cmd.off ≠ cmd.reset := by simpa using List.nodup_reverse.2 hne
  simp [decodeBroadcast, hne']

theorem decodeShort_of_distinct {cmd : Cmd} (h : cmd.distinct = true) (k : ShortAddr) :
    decodeShort cmd k cmd.queryStatus = .ok (.queryStatus k) ∧ decodeShort cmd k cmd.on = .ok (.saOn k) ∧
    decodeShort cmd k cmd.off = .ok (.saOff k) := by
  obtain ⟨-, -, -, hne⟩ := cmd.distinct_iff.1 h
  obtain ⟨⟨hoff, hon⟩, hoff'⟩ : (cmd.on ≠ cmd.off ∧ cmd.on ≠ cmd.queryStatus) ∧ cmd.off ≠ cmd.queryStatus := by
    simpa using List.nodup_reverse.2 hne
  simp [decodeShort, hon, hoff', hoff.symm]

/-- Under a distinct record a frame's pair passes exactly its own test of the decoder. -/
theorem decodePair_of_framePair {cmd : Cmd} {i : Instr} {a c : Byte} (h : cmd.distinct = true)
    (hf : framePair cmd i = some (a, c)) : decodePair cmd a c = .ok i := by
  obtain ⟨hinit, hrand, hsh, hsm, hsl, hcmp, hwd, hterm⟩ := decodePair_special h c
  obtain ⟨hreset, hoff, hon⟩ := decodeBroadcast_of_distinct h
  cases i <;> simp only [framePair, Option.some.injEq, Prod.mk.injEq, reduceCtorEq] at hf <;> obtain ⟨rfl, rfl⟩ := hf
  case bcReset => exact (if_pos rfl).trans hreset
  case bcOff => exact (if_pos rfl).trans hoff
  case bcOn => exact (if_pos rfl).trans hon
  case initialise => exact hinit.trans (if_pos rfl)
  case randomise => exact hrand.trans (if_pos rfl)
  case searchaddrh v => exact hsh
  case searchaddrm v => exact hsm
  case searchaddrl v => exact hsl
  case compare => exact hcmp.trans (if_pos rfl)
  case programShort k => simp [Machine.decodePair_programShort h, tok_eq_sa]
  case withdraw => exact hwd.trans (if_pos rfl)
  case terminate => exact hterm.trans (if_pos rfl)
  case queryStatus k => exact (decodePair_sa h k _).trans (decodeShort_of_distinct h k).1
  case saOn k => exact (decodePair_sa h k _).trans (decodeShort_of_distinct h k).2.1
  case saOff k => exact (decodePair_sa h k _).trans (decodeShort_of_distinct h k).2.2

theorem framePair_of_decodeBroadcast {cmd : Cmd} {c : Byte} {i : Instr} (h : decodeBroadcast cmd c = .ok i) :
    framePair cmd i = some (cmd.bcast, c) := by
  unfold decodeBroadcast at h
  split_ifs at h with hc hc hc <;> cases h <;> rw [hc] <;> rfl

theorem framePair_of_decodeShort {cmd : Cmd} {k : ShortAddr} {c : Byte} {i : Instr} (h : decodeShort cmd k c = .ok i) :
    framePair cmd i = some (sa k, c) := by
  unfold decodeShort at h
  split_ifs at h with hc hc hc <;> cases h <;> rw [hc] <;> rfl

theorem framePair_of_fixedData {cmd : Cmd} {a b want c : Byte} {i j : Instr} (ha : a = b) (h : fixedData i want c = .ok j)
    (hi : framePair cmd i = some (b, want)) : framePair cmd j = some (a, c) := by
  obtain ⟨rfl, rfl⟩ := fixedData_eq_ok_iff.1 h
  rw [hi, ha]

/-- One test of a decoder, taken or not. -/
theorem ite_eq_ok_elim {P Q : Prop} [Decidable P] {x y : Except DecodeError Instr} {i : Instr} (hthen : P → x = .ok i → Q)
    (helse : y = .ok i → Q) (h : (if P then x else y) = .ok i) : Q := by
  obtain ⟨hp, h⟩ | ⟨-, h⟩ := ite_eq_iff.1 h
  · exact hthen hp h
  · exact helse h

/-- A pair that decodes is the pair of what it decodes to, under any record: each test of the decoder fixes the address byte, and
what it then asks of the command byte fixes that. -/
theorem framePair_of_decodePair {cmd : Cmd} {a c : Byte} {i : Instr} :
    decodePair cmd a c = .ok i → framePair cmd i = some (a, c) := by
  unfold decodePair
  refine ite_eq_ok_elim (fun ha h => by rw [framePair_of_decodeBroadcast h, ha]) ?_
  refine ite_eq_ok_elim (fun ha h => framePair_of_fixedData ha h rfl) ?_
  refine ite_eq_ok_elim (fun ha h => framePair_of_fixedData ha h rfl) ?_
  refine ite_eq_ok_elim (fun ha h => by cases h; rw [ha]; rfl) ?_
  refine ite_eq_ok_elim (fun ha h => by cases h; rw [ha]; rfl) ?_
  refine ite_eq_ok_elim (fun ha h => by cases h; rw [ha]; rfl) ?_
  refine ite_eq_ok_elim (fun ha h => framePair_of_fixedData ha h rfl) ?_
  refine ite_eq_ok_elim (fun ha => ite_eq_ok_elim (fun hc h => ?_) nofun) ?_
  · cases h
    rw [framePair, tok_eq_sa, sa_shortField hc, ha]
  refine ite_eq_ok_elim (fun ha h => framePair_of_fixedData ha h rfl) ?_
  refine ite_eq_ok_elim (fun ha h => framePair_of_fixedData ha h rfl) ?_
  exact ite_eq_ok_elim (fun ha h => by rw [framePair_of_decodeShort h, sa_shortField ha]) nofun

/-- Settles O4: host requests are their fields, and a frame's pair passes exactly its own test of the decoder. -/
theorem decodeOfEncodeIsSame : Obligations.DecodeOfEncodeIsSame := by
  unfold Obligations.DecodeOfEncodeIsSame
  intro cmd i h
  cases hf : framePair cmd i with
  | none => exact decode_encode_of_request hf
  | some p =>
    rw [Machine.encode_frame hf, decode, decodeFrame_append]
    exact decodePair_of_framePair h hf

/-- Settles O5: a host request word is the fields it was read from, and a frame word the pair. -/
theorem encodeOfDecodeIsSame : Obligations.EncodeOfDecodeIsSame := by
  unfold Obligations.EncodeOfDecodeIsSame
  intro cmd code i h
  cases code with
  | request w => exact encode_of_decodeRequest h
  | frame w =>
    rw [Machine.encode_frame (framePair_of_decodePair h)]
    exact congrArg Code.frame BitVec.extractLsb'_append_extractLsb'

/-- Settles O6: each of the ten words is evaluated by the decoder. -/
theorem wordsOfTheSpecDecode : Obligations.WordsOfTheSpecDecode := by
  unfold Obligations.WordsOfTheSpecDecode
  decide

/-- Settles O7: the token's value, from which its bound follows, and its bits. -/
theorem tokenIsShortAddressForm : Obligations.TokenIsShortAddressForm := by
  unfold Obligations.TokenIsShortAddressForm
  intro k
  have hk := k.isLt
  have hval := tok_toNat k
  exact ⟨hval, tok_eq_append k, tok_eq_sa k, by omega⟩

/-- Settles O30: the pairs are read off `framePair`, with the short-address byte and the token written as numbers (R103, R104). -/
theorem framePairsOfTheTable : Obligations.FramePairsOfTheTable := by
  unfold Obligations.FramePairsOfTheTable
  intro cmd v k
  simp [framePair, tok_eq_ofNat, sa_eq_ofNat]

end Sys2Proof

namespace Sys2Proof.Machine

/-! ### Requests of an idle block and refusals

The step of an idle block is its request, run or refused (R106, R108); a busy block refuses every host operation. -/

theorem fetch_of_idle {s : State} (hp : s.phase = .idle) (hr : s.resetIn ≠ some 0) : fetch s = fetchRequest s.tick := by
  simp [fetch_of_reset_not_due hr, fetchPhase, hp]

/-- An idle block runs the request that is next, once it decodes (R106). -/
theorem step_of_request {s : State} {r : HostRequest} {rest : List HostRequest} {i : Instr} (hp : s.phase = .idle)
    (hr : s.resetIn ≠ some 0) (hq : s.requests = r :: rest) (hd : decodeRequest r.word = .ok i) :
    step s = exec i (s.tick.accept r rest) :=
  step_of_run ((fetch_of_idle hp hr).trans (fetchRequest_of_decoded hq hd))

/-- An idle block refuses a request that does not decode (R108). -/
theorem step_of_malformed {s : State} {r : HostRequest} {rest : List HostRequest} {e : DecodeError} (hp : s.phase = .idle)
    (hr : s.resetIn ≠ some 0) (hq : s.requests = r :: rest) (hd : decodeRequest r.word = .error e) :
    step s = .refused (.malformed e) := by
  rw [step, (fetch_of_idle hp hr).trans (fetchRequest_of_malformed hq hd)]

/-- Settles O1: the countdown of the reset input runs and the request is taken, and nothing else comes before it. -/
theorem stepRunsDecodedRequest : Obligations.StepRunsDecodedRequest := by
  unfold Obligations.StepRunsDecodedRequest
  intro s r rest i hp hq hd
  refine ⟨fun hr => ?_, fun k hr => ?_⟩
  · rw [step_of_request hp (by simp [hr]) hq hd, State.tick_of_no_reset hr]
    rfl
  · rw [step_of_request hp (by simp [hr]) hq hd, State.accept, State.tick, hr]
    rfl

/-- Settles O9: the meaning of the reserved instruction reads no state. -/
theorem reservedOperationIsRefused : Obligations.ReservedOperationIsRefused := fun _ _ => rfl

theorem decodeWidthOk_eq_false_iff (n : Byte) : decodeWidthOk n = false ↔ n ≠ 8 ∧ n ≠ 16 := by simp [decodeWidthOk]

/-- DECODE with another count than 8 and 16 is refused, whatever the block is doing (R108). -/
theorem exec_decode_of_width {n : Byte} (h : decodeWidthOk n = false) (s : State) :
    exec (.decode n) s = .refused .decodeWidth := by
  simp [exec, execDecode, h]

/-- The instructions that are not well formed are refused in every state (R108). -/
theorem exec_of_not_wf {i : Instr} (h : i.wf = false) (s : State) : ∃ r, exec i s = .refused r := by
  cases i <;> simp only [Instr.wf, Bool.true_eq_false] at h
  case decode n => exact ⟨_, exec_decode_of_width h s⟩
  case reservedOp7 x => exact ⟨_, reservedOperationIsRefused s x⟩

/-- A busy block refuses every host operation as busy (R108). -/
theorem exec_of_busy {i : Instr} {s : State} (hp : s.phase ≠ .idle) (hf : framePair s.cfg.cmd i = none) (h : i.wf = true) :
    exec i s = .refused .busy := by
  cases i <;> simp only [framePair, reduceCtorEq] at hf
  case decode n => exact (if_pos h).trans (whenIdle_of_busy hp)
  case reservedOp7 x => cases h
  all_goals exact whenIdle_of_busy hp

/-- Settles O8: an ill-formed word is refused by the decoder or by the operation it is read as, and a busy block refuses every
host operation. -/
theorem illFormedRequestsAreRefused : Obligations.IllFormedRequestsAreRefused := by
  unfold Obligations.IllFormedRequestsAreRefused
  refine ⟨fun s r rest hp hr hq => ?_, fun s i hp hf => ?_, fun s i hp hf hwf => exec_of_busy hp hf hwf⟩
  · have hdue : s.resetIn ≠ some 0 := by simp [hr]
    refine ⟨fun hop => ?_, fun hop hne => ?_, fun hop ha => ?_, fun hop ha h8 h16 => ?_⟩
    · rw [step_of_request hp hdue hq (decodeRequest_reserved hop), reservedOperationIsRefused]
    · obtain ⟨i, hi⟩ := decodeRequest_bare hop
      exact step_of_malformed hp hdue hq (hi.trans (if_neg (not_and_or.2 hne)))
    · exact step_of_malformed hp hdue hq ((decodeRequest_decode hop).trans (if_neg ha))
    · rw [step_of_request hp hdue hq ((decodeRequest_decode hop).trans (if_pos ha))]
      exact exec_decode_of_width ((decodeWidthOk_eq_false_iff _).2 ⟨h8, h16⟩) _
  · cases hwf : i.wf with
    | true => exact ⟨_, exec_of_busy hp hf hwf⟩
    | false => exact exec_of_not_wf hwf s

/-- Settles O29: both are the frame written by an idle block. -/
theorem frameOfIdleBlockIsIssue : Obligations.FrameOfIdleBlockIsIssue := by
  unfold Obligations.FrameOfIdleBlockIsIssue
  intro i a c s hf hp
  rw [exec_frame hf, busFrame_of_idle a c hp]
  exact (whenIdle_of_idle hp).symm

/-! ### Frames symbol by symbol

The start pattern, then two symbols for each bit from the most significant (R91 to R94); packing is symbol by symbol (R96). -/

/-- The biphase code of a bit is the bit and its complement (R91). -/
theorem flatMap_bi_getElem? (l : List Bool) (j : Nat) :
    (l.flatMap bi)[j]? = (l[j / 2]?).map (· ^^ decide (j % 2 = 1)) := by
  induction l generalizing j with
  | nil => simp
  | cons b t ih =>
    match j with
    | 0 => simp [bi]
    | 1 => simp [bi]
    | j + 2 => simpa [bi] using ih j

theorem bitsMsb_getElem? {n j : Nat} (v : BitVec n) (hj : j < n) : (bitsMsb v)[j]? = some (v.getLsbD (n - 1 - j)) := by
  simp [bitsMsb, hj, BitVec.getMsbD]

/-- Symbol `j` of a frame after its start pattern, for a word of any width (R93, R94). -/
theorem frameOf_getElem? {n j : Nat} (v : BitVec n) (h : 2 ≤ j) (hj : j < 2 + 2 * n) :
    (frameOf v)[j]? = some (v.getLsbD (n - 1 - (j - 2) / 2) ^^ decide ((j - 2) % 2 = 1)) := by
  obtain ⟨m, rfl⟩ := Nat.exists_eq_add_of_le' h
  have hm : m / 2 < n := by omega
  rw [frameOf_eq, Nat.add_sub_cancel, List.getElem?_cons_succ, List.getElem?_cons_succ, flatMap_bi_getElem?,
    bitsMsb_getElem? v hm, Option.map_some]

/-- Settles O10: a forward frame is the frame of a 16-bit word. -/
theorem forwardFrameLayout : Obligations.ForwardFrameLayout := by
  unfold Obligations.ForwardFrameLayout
  exact fun a c => ⟨length_frameOf _, rfl, rfl, fun _ h hj => frameOf_getElem? _ h hj⟩

/-- Settles O11: a backward frame is the frame of an 8-bit word. -/
theorem backwardFrameLayout : Obligations.BackwardFrameLayout := by
  unfold Obligations.BackwardFrameLayout
  exact fun r => ⟨length_frameOf r, rfl, rfl, fun _ h hj => frameOf_getElem? r h hj⟩

/-- Settles O12: packing maps each symbol to its byte, so a packed frame is as long as the frame. -/
theorem packingIsOneByteASymbol : Obligations.PackingIsOneByteASymbol := by
  unfold Obligations.PackingIsOneByteASymbol
  refine ⟨fun s j => List.getElem?_map, fun a c => ?_, fun r => ?_⟩
  · exact (length_pack _).trans (length_frameOf _)
  · exact (length_pack _).trans (length_bwd r)

end Sys2Proof.Machine

namespace Sys2Proof.Machine

/-! ### DECODE inverts the frames

Each stage of DECODE undoes one stage of the encoder and accepts nothing else: the packing (R96), the start pattern and the
biphase pairs (R91, R92), the bits of the word (R93, R94). So DECODE gives a value exactly for the packing of that value's frame. -/

theorem pack_of_unpack {x : List Byte} {s : List Sym} (h : unpack x = some s) : pack s = x := by
  induction x generalizing s with
  | nil => cases h; rfl
  | cons b t ih =>
    rw [unpack] at h
    split_ifs at h with hhigh hlow <;> obtain ⟨s', hs, rfl⟩ := Option.map_eq_some_iff.1 h <;> rw [← ih hs]
    · rw [hhigh]; rfl
    · rw [hlow]; rfl

theorem flatMap_bi_of_unpair {s : List Sym} {l : List Bool} (h : unpair s = some l) : l.flatMap bi = s := by
  induction s using unpair.induct generalizing l with
  | case1 => cases h; rfl
  | case2 t ih =>
    obtain ⟨l', hl, rfl⟩ := Option.map_eq_some_iff.1 h
    rw [← ih hl]; rfl
  | case3 t ih =>
    obtain ⟨l', hl, rfl⟩ := Option.map_eq_some_iff.1 h
    rw [← ih hl]; rfl
  | case4 => cases h
  | case5 => cases h
  | case6 b => cases b <;> cases h

theorem eq_of_afterStart {s : List Sym} {l : List Bool} (h : afterStart s = some l) : s = true :: false :: l.flatMap bi := by
  unfold afterStart at h
  split at h
  · rw [flatMap_bi_of_unpair h]
  · cases h

/-- The bits of the value are the sequence it was read from, the last of it being bit 0. -/
theorem testBit_valueMsb (l : List Bool) (i : Nat) : (valueMsb l).testBit i = l.reverse.getD i false := by
  induction l using List.reverseRecOn generalizing i with
  | nil => simp [valueMsb]
  | append_singleton l b ih =>
    rw [valueMsb_append, List.reverse_append]
    cases i with
    | zero => cases b <;> simp [Nat.testBit_zero]
    | succ i =>
      have hdiv : (2 * valueMsb l + b.toNat) / 2 = valueMsb l := by have := b.toNat_lt; omega
      rw [Nat.testBit_succ, hdiv, ih]
      rfl

theorem bitsMsb_ofNat_valueMsb {n : Nat} {l : List Bool} (h : l.length = n) : bitsMsb (BitVec.ofNat n (valueMsb l)) = l := by
  subst h
  refine List.ext_getElem? fun j => ?_
  by_cases hj : j < l.length
  · have hlow : l.length - 1 - j < l.length := by omega
    have hback : l.length - 1 - (l.length - 1 - j) = j := by omega
    rw [bitsMsb_getElem? _ hj, BitVec.getLsbD_ofNat, testBit_valueMsb]
    simp [hlow, hback, hj]
  · simp [hj]

theorem bitsMsb_injective {n : Nat} {v w : BitVec n} (h : bitsMsb v = bitsMsb w) : v = w := by
  refine BitVec.eq_of_getMsbD_eq fun i hi => ?_
  exact List.map_inj_left.1 h i (List.mem_range.2 hi)

theorem ofNat_valueMsb_bitsMsb {n : Nat} (v : BitVec n) : BitVec.ofNat n (valueMsb (bitsMsb v)) = v :=
  bitsMsb_injective (bitsMsb_ofNat_valueMsb (length_bitsMsb v))

/-- DECODE reads the value back from a packed frame of any width (R134). -/
@[simp] theorem decodeBuffer_pack {n : Nat} (v : BitVec n) : decodeBuffer n (pack (frameOf v)) = some v := by
  simp [decodeBuffer, unpack_pack, afterStart_frameOf, ofNat_valueMsb_bitsMsb]

/-- A buffer DECODE gives a value for is the packed frame of it (R134). -/
theorem eq_pack_of_decodeBuffer {n : Nat} {x : List Byte} {v : BitVec n} (h : decodeBuffer n x = some v) :
    x = pack (frameOf v) := by
  rw [decodeBuffer] at h
  split_ifs at h with hlen
  obtain ⟨l, hl, rfl⟩ := Option.map_eq_some_iff.1 h
  obtain ⟨s, hs, hs'⟩ := Option.bind_eq_some_iff.1 hl
  obtain rfl := pack_of_unpack hs
  obtain rfl := eq_of_afterStart hs'
  have hn : l.length = n := by
    simp only [length_pack, List.length_cons, length_flatMap_bi] at hlen
    omega
  rw [frameOf_eq, bitsMsb_ofNat_valueMsb hn]

theorem decodeBuffer_eq_none {n : Nat} {x : List Byte} (h : ∀ v : BitVec n, x ≠ pack (frameOf v)) :
    decodeBuffer n x = none :=
  Option.eq_none_iff_forall_ne_some.2 fun v hv => h v (eq_pack_of_decodeBuffer hv)

theorem pack_frameOf_injective {n : Nat} {v w : BitVec n} (h : pack (frameOf v) = pack (frameOf w)) : v = w :=
  Option.some.inj (by rw [← decodeBuffer_pack v, h, decodeBuffer_pack])

/-- Every 16-bit word is a pair of bytes. -/
theorem exists_append_bytes (v : BitVec 16) : ∃ a c : Byte, a ++ c = v :=
  ⟨v.extractLsb' 8 8, v.extractLsb' 0 8, BitVec.extractLsb'_append_extractLsb'⟩

theorem append_bytes_inj {a c a' c' : Byte} (h : a ++ c = a' ++ c') : a = a' ∧ c = c' := by
  constructor
  · rw [← BitVec.extractLsb'_append_eq_left (a := a) (b := c), h, BitVec.extractLsb'_append_eq_left]
  · rw [← BitVec.extractLsb'_append_eq_right (a := a) (b := c), h, BitVec.extractLsb'_append_eq_right]

/-- Settles O13: the packed frame gives the 16-bit word back, and the word the two bytes. -/
theorem forwardFramesAreDistinct : Obligations.ForwardFramesAreDistinct := by
  unfold Obligations.ForwardFramesAreDistinct
  exact fun a c a' c' h => append_bytes_inj (pack_frameOf_injective h)

/-- Settles O14: the forward and the backward frame are the frames of a 16-bit and an 8-bit word. -/
theorem decodeReadsExactlyTheFrames : Obligations.DecodeReadsExactlyTheFrames := by
  unfold Obligations.DecodeReadsExactlyTheFrames
  exact ⟨fun a c => decodeBuffer_pack (a ++ c), decodeBuffer_pack, fun _ _ => eq_pack_of_decodeBuffer,
    fun _ _ _ => eq_pack_of_decodeBuffer⟩

/-! ### The codec's host operations

An idle block returns the value of the operation and changes nothing else (R130, R132, R134). -/

/-- In an idle block the end of an operation changes `RESULT`, `STATUS` and the observation alone. -/
theorem State.finish_of_idle {s : State} (hp : s.phase = .idle) (r : Result) :
    s.finish r = { s with result := some r, status := .ok, trace := .returned r :: s.trace } := by
  rw [State.finish, ← hp]

theorem exec_decode_of_idle {n : Byte} {s : State} (hn : decodeWidthOk n = true) (hp : s.phase = .idle) :
    exec (.decode n) s = .next (s.finish (decodeResult n s.hostData)) :=
  (if_pos hn).trans (whenIdle_of_idle hp)

theorem exec_classify_of_idle {s : State} (hp : s.phase = .idle) :
    exec .classify s = .next (s.finish (.classification (classify s.hostData))) :=
  whenIdle_of_idle hp

/-- What DECODE 8 returns: the byte of a packed backward frame, `Invalid` for any other buffer (R134). -/
theorem decodeResult_byte {x : List Byte} {r : Result}
    (h : (∃ v, x = pack (bwd v) ∧ r = .byte v) ∨ ((∀ v, x ≠ pack (bwd v)) ∧ r = .invalid)) : decodeResult 8 x = r := by
  rw [decodeResult, if_pos rfl]
  obtain ⟨v, rfl, rfl⟩ | ⟨hno, rfl⟩ := h
  · rw [bwd, decodeBuffer_pack]
  · rw [decodeBuffer_eq_none hno]

/-- What DECODE 16 returns: the pair of a packed forward frame, `Invalid` for any other buffer (R134). -/
theorem decodeResult_pair {x : List Byte} {r : Result}
    (h : (∃ a c, x = pack (fwd a c) ∧ r = .pair (a ++ c)) ∨ ((∀ a c, x ≠ pack (fwd a c)) ∧ r = .invalid)) :
    decodeResult 16 x = r := by
  rw [decodeResult, if_neg (by decide)]
  obtain ⟨a, c, rfl, rfl⟩ | ⟨hno, rfl⟩ := h
  · rw [fwd, decodeBuffer_pack]
  · have hnone : decodeBuffer 16 x = none := decodeBuffer_eq_none fun v => by
      obtain ⟨a, c, rfl⟩ := exists_append_bytes v
      exact hno a c
    rw [hnone]

/-- Settles O17: what DECODE returns for the two widths, as the end of an idle block's operation. -/
theorem decodeReturnsValueOrInvalid : Obligations.DecodeReturnsValueOrInvalid := by
  unfold Obligations.DecodeReturnsValueOrInvalid
  refine fun s r hp => ⟨fun h => ?_, fun h => ?_⟩
  · rw [exec_decode_of_idle rfl hp, decodeResult_byte h, State.finish_of_idle hp]
  · rw [exec_decode_of_idle rfl hp, decodeResult_pair h, State.finish_of_idle hp]

/-- Settles O18: the second start symbol is low, in one frame and in the wired-AND of any number of frames (R92); an idle buffer
holds idle bytes only. -/
theorem collisionsClassifyResponded : Obligations.CollisionsClassifyResponded := by
  unfold Obligations.CollisionsClassifyResponded
  refine ⟨fun r => ?_, fun rs => classify_pack_wiredAnd, fun n => ?_⟩
  · exact (classify_eq_responded_iff _).2 ⟨packSym false, List.mem_map_of_mem (by simp [bwd, frameOf_eq]), by decide⟩
  · exact (classify_eq_noResponse_iff _).2 fun b hb => List.eq_of_mem_replicate hb

/-- Settles O15: ENCODE ends an idle block's operation with the frame. -/
theorem encodeReturnsFrame : Obligations.EncodeReturnsFrame := by
  unfold Obligations.EncodeReturnsFrame
  intro s a c hp
  rw [exec, execEncode, whenIdle_of_idle hp, State.finish_of_idle hp]

/-- Settles O16: CLASSIFY ends an idle block's operation with the classification, read byte by byte. -/
theorem classifyReturnsPresence : Obligations.ClassifyReturnsPresence := by
  unfold Obligations.ClassifyReturnsPresence
  refine fun s hp => ⟨fun h => ?_, fun h => ?_⟩
  · rw [exec_classify_of_idle hp, (classify_eq_noResponse_iff _).2 h, State.finish_of_idle hp]
  · rw [exec_classify_of_idle hp, (classify_eq_responded_iff _).2 h, State.finish_of_idle hp]

end Sys2Proof.Machine

namespace Sys2Proof.Machine

/-! ### Errors of the block

An error ends the operation (R257). Inside a sequence it cuts that sequence; in an idle block it belongs to ISSUE or AWAIT, which
use no register of a sequence, and cuts the host's search or nothing (R289). -/

/-- The context of an error is R30's, phase by phase. -/
theorem context_eq_errorContext (op : HostOp) (s : State) : s.context op = errorContext op s := by
  have hfirst : s.phase.beforeFirstPass = false ↔
      s.phase ∉ [.cmReset1, .cmReset2, .cmInit1, .cmInit2, .cmRand1, .cmRand2] := by cases s.phase <;> decide
  simp only [State.context, errorContext, hfirst]

/-- An error of an operation other than SCAN and COMMISSION has no register in its context (R30). -/
theorem context_of_hostCall {op : HostOp} {s : State} (hs : op ≠ .scan) (hc : op ≠ .commission) :
    s.context op = { op := op, phase := s.phase, assigned := none, low := none, high := none, scanix := none } := by
  simp [State.context, hs, hc]

/-- A transport error inside a sequence: the whole next state (R199, R231, R257). -/
theorem State.raise_in_sequence {op : HostOp} {e : ErrCode} {s : State} (hp : s.phase ≠ .idle)
    (he : e ≠ .transportReadTimeout) :
    s.raise op e =
      { s with
        phase  := .idle
        status := e
        errctx := some (errorContext op s)
        env    := s.env.interrupt
        trace  := .failed e :: s.trace } := by
  rw [State.raise, if_neg he, Env.cut, if_neg hp, context_eq_errorContext]

/-- An error of an operation an idle block runs in one step: the whole next state (R257). -/
theorem State.raise_of_idle {op : HostOp} {e : ErrCode} {s : State} (hp : s.phase = .idle) (hs : op ≠ .scan)
    (hc : op ≠ .commission) :
    s.raise op e =
      { s with
        status := e
        errctx := some { op := op, phase := .idle, assigned := none, low := none, high := none, scanix := none }
        env    := if e = .transportReadTimeout then s.env else s.env.cutHostSearch
        trace  := .failed e :: s.trace } := by
  rw [State.raise, context_of_hostCall hs hc, Env.cut, if_pos hp, hp]

/-- A frame of a sequence that is not written whole is the write error of the operation under way (R152). -/
theorem exec_frame_unwritten {i : Instr} {a c : Byte} {s : State} {op : HostOp} (hf : framePair s.cfg.cmd i = some (a, c))
    (hop : s.phase.op = some op) (hw : s.env.nextWrite ≠ .written 34) :
    exec i s = .next ((s.txWrite (pack (fwd a c))).raise op .transportWriteError) := by
  rw [exec_frame hf, busFrame_of_op a c hop]
  obtain ⟨h, _⟩ | ⟨_, h⟩ := sendFrame_cases op a c s
  · exact absurd h hw
  · rw [h]

/-- Settles O28: the frame is the write error of its operation, and an error inside a sequence cuts it. -/
theorem unwrittenFrameEndsSequence : Obligations.UnwrittenFrameEndsSequence := by
  unfold Obligations.UnwrittenFrameEndsSequence
  intro i a c s op hf hop hw
  have hbusy : s.phase ≠ .idle := fun h => by simp [h, Phase.op] at hop
  rw [exec_frame_unwritten hf hop hw, State.raise_in_sequence (s := s.txWrite _) hbusy (by decide)]
  rfl

/-! ### ISSUE and AWAIT

The two host operations that make one transport call (R150, R151). -/

/-- Settles O22: a complete write is the end of the operation, any other the write error. -/
theorem issueWritesOneFrame : Obligations.IssueWritesOneFrame := by
  unfold Obligations.IssueWritesOneFrame
  intro s a c hp
  have hexec : exec (.issue a c) s = .next (s.issueFrame a c) := whenIdle_of_idle hp
  obtain ⟨hw, h⟩ | ⟨hw, h⟩ := issueFrame_cases a c s
  · refine ⟨fun _ => ?_, fun hn => absurd hw hn⟩
    rw [hexec, h, State.finish_of_idle (s := s.txWrite _) hp, State.txWrite, hw]
  · refine ⟨fun hn => absurd hn hw, fun _ => ?_⟩
    rw [hexec, h, State.raise_of_idle (s := s.txWrite _) hp (by decide) (by decide)]
    rfl

/-- AWAIT ends with the classification of the bytes it read (R151). -/
theorem exec_await_of_ok {s : State} {r : Response} (hp : s.phase = .idle)
    (h : awaitOutcome (s.env.nextRead bwdLen) = .ok r) :
    exec .await s = .next ((s.txRead bwdLen).finish (.classification r)) := by
  rw [exec, execAwait, whenIdle_of_idle hp, State.awaitFrame, h]

/-- A read that brought no bytes is AWAIT's error (R151). -/
theorem exec_await_of_error {s : State} {e : ErrCode} (hp : s.phase = .idle)
    (h : awaitOutcome (s.env.nextRead bwdLen) = .error e) :
    exec .await s = .next ((s.txRead bwdLen).raise .await e) := by
  rw [exec, execAwait, whenIdle_of_idle hp, State.awaitFrame, h]

/-- Bytes that came are classified (R151). -/
theorem awaitOutcome_bytes {x : List Byte} (h : x ≠ []) : awaitOutcome (.bytes x) = .ok (classify x) := by
  cases x with
  | nil => exact absurd rfl h
  | cons b t => rfl

theorem showsResponse_bytes_iff (x : List Byte) : showsResponse (.bytes x) ↔ classify x = .responded := by
  simp [showsResponse, classify_eq_responded_iff, idleByte]

/-- Settles O23: the outcome of the read decides between the end of the operation and its two errors. -/
theorem awaitReadsOneFrame : Obligations.AwaitReadsOneFrame := by
  unfold Obligations.AwaitReadsOneFrame
  rintro s _ hp rfl
  have hidle : (s.txRead bwdLen).phase = .idle := hp
  refine ⟨fun ho => ?timeout, fun ho => ?fault, fun x r ho hx hr => ?bytes⟩
  case timeout =>
    have hout : awaitOutcome (s.env.nextRead bwdLen) = .error .transportReadTimeout := by
      obtain ho | ho := ho <;> exact congrArg awaitOutcome ho
    rw [exec_await_of_error hp hout, State.raise_of_idle hidle (by decide) (by decide), if_pos rfl]
    rfl
  case fault =>
    rw [exec_await_of_error hp (congrArg awaitOutcome ho), State.raise_of_idle hidle (by decide) (by decide),
      if_neg (by decide)]
    rfl
  case bytes =>
    have hclass : classify x = r := by
      obtain ⟨hs, rfl⟩ | ⟨hs, rfl⟩ := hr
      · exact (showsResponse_bytes_iff x).1 (ho ▸ hs)
      · exact (classify_eq_noResponse_iff x).2 hs
    have hout : awaitOutcome (s.env.nextRead bwdLen) = .ok r :=
      (congrArg awaitOutcome ho).trans (hclass ▸ awaitOutcome_bytes hx)
    rw [exec_await_of_ok hp hout, State.finish_of_idle hidle]
    rfl

/-! ### Frames written whole

`Send` leaves the frame and one settle, and the phase's own updates come after it (R152). At most phases the only update is the
next phase. -/

/-- The phase that comes after a frame which updates no other register (R191, R212); none for a phase that sends no frame, counts,
or ends the operation. -/
def Phase.following : Phase → Option Phase
  | .scBoff   => some .scQ
  | .scQ      => some .scAwait
  | .scTon    => some .scToff
  | .cmReset1 => some .cmReset2
  | .cmReset2 => some .cmInit1
  | .cmInit1  => some .cmInit2
  | .cmInit2  => some .cmRand1
  | .cmRand1  => some .cmRand2
  | .cmRand2  => some .cmPass
  | .cmSh     => some .cmSm
  | .cmSm     => some .cmSl
  | .cmSl     => some .cmCmp
  | .cmCmp    => some .cmAwait
  | .cmXh     => some .cmXm
  | .cmXm     => some .cmXl
  | .cmXl     => some .cmProg
  | .cmProg   => some .cmWdraw
  | .cmWdraw  => some .cmLon
  | .cmLon    => some .cmLoff
  | .cmTerm   => some .cmBon
  | _         => none

theorem advance_of_following {s : State} {q : Phase} (h : s.phase.following = some q) : s.advance = s.goto q := by
  cases hp : s.phase <;> rw [hp] at h <;> cases h <;> simp only [State.advance, hp]

/-- The toggle's second frame counts the address (R197). -/
theorem advance_of_scToff {s : State} (hp : s.phase = .scToff) :
    s.advance = { s with scanix := s.scanix + 1, phase := .scQ } := by simp [State.advance, hp]

/-- The toggle's second frame counts the device (R228). -/
theorem advance_of_cmLoff {s : State} (hp : s.phase = .cmLoff) :
    s.advance = { s with assigned := s.assigned + 1, phase := .cmPass } := by simp [State.advance, hp]

/-- SCAN's last frame returns the occupancy set (R198). -/
theorem advance_of_scBon {s : State} (hp : s.phase = .scBon) : s.advance = s.finish (.mask s.occ) := by
  simp [State.advance, hp]

/-- COMMISSION's last frame returns the number of devices (R230). -/
theorem advance_of_cmBon {s : State} (hp : s.phase = .cmBon) : s.advance = s.finish (.count s.assigned) := by
  simp [State.advance, hp]

section
variable {i : Instr} {a c : Byte} {s : State} {p : Phase}

theorem exec_frame_sent {op : HostOp} (hw : s.env.nextWrite = .written 34) (hf : framePair s.cfg.cmd i = some (a, c))
    (hp : s.phase = p) (hop : p.op = some op) : exec i s = .next (s.sent a c).advance := by
  rw [exec_frame_written hf (hp ▸ hop) hw, State.txWrite, hw]
  rfl

/-- A frame written whole at a phase with no update of its own moves on to the next phase (R152). -/
theorem exec_frame_moves {q : Phase} (hw : s.env.nextWrite = .written 34) (hf : framePair s.cfg.cmd i = some (a, c))
    (hp : s.phase = p) (hq : p.following = some q) : exec i s = .next { s.sent a c with phase := q } := by
  obtain ⟨op, hop⟩ : ∃ op, p.op = some op := Option.ne_none_iff_exists'.1 fun h => by
    rw [(Phase.op_eq_none_iff p).1 h] at hq
    cases hq
  subst hp
  exact (exec_frame_sent hw hf rfl hop).trans (congrArg _ (advance_of_following hq))

end

/-- Settles O24: the frames that start an operation move on, the two that end one return its result. -/
theorem broadcastFramesComplete : Obligations.BroadcastFramesComplete := by
  unfold Obligations.BroadcastFramesComplete
  intro s hw
  refine ⟨fun hp => exec_frame_moves hw rfl hp rfl, fun hp => exec_frame_moves hw rfl hp rfl,
    fun hp => exec_frame_moves hw rfl hp rfl, fun hp => ?scanEnd, fun hp => ?commissionEnd⟩
  case scanEnd => exact (exec_frame_sent hw rfl hp rfl).trans (congrArg _ (advance_of_scBon hp))
  case commissionEnd => exact (exec_frame_sent hw rfl hp rfl).trans (congrArg _ (advance_of_cmBon hp))

/-- Settles O25: each of these frames only moves on. -/
theorem addressingFramesComplete : Obligations.AddressingFramesComplete := by
  unfold Obligations.AddressingFramesComplete
  intro s hw
  refine ⟨?_, ?_, ?_, ?_, ?_, ?_, ?_⟩ <;> exact fun hp => exec_frame_moves hw rfl hp rfl

/-- Settles O26: each byte of a search address only moves on, in the search and in the selection. -/
theorem searchAddressFramesComplete : Obligations.SearchAddressFramesComplete := by
  unfold Obligations.SearchAddressFramesComplete
  intro s v hw
  refine ⟨?_, ?_, ?_, ?_, ?_, ?_⟩ <;> exact fun hp => exec_frame_moves hw rfl hp rfl

/-- Settles O27: the frames move on, and the toggle's second frame counts. -/
theorem shortAddressFramesComplete : Obligations.ShortAddressFramesComplete := by
  unfold Obligations.ShortAddressFramesComplete
  intro s k hw
  refine ⟨fun hp => exec_frame_moves hw rfl hp rfl, fun hp => exec_frame_moves hw rfl hp rfl,
    fun hp => exec_frame_moves hw rfl hp rfl, fun hp => exec_frame_moves hw rfl hp rfl,
    fun hp => ?countAddress, fun hp => ?countDevice⟩
  case countAddress => exact (exec_frame_sent hw rfl hp rfl).trans (congrArg _ (advance_of_scToff hp))
  case countDevice => exact (exec_frame_sent hw rfl hp rfl).trans (congrArg _ (advance_of_cmLoff hp))

end Sys2Proof.Machine

namespace Sys2Proof.Machine

/-! ### The scanner's steps without a frame

SCAN's start, its probe and its end (R192, R194, R195). -/

/-- Settles O31: an idle block runs SCAN's start. -/
theorem scanStarts : Obligations.ScanStarts := fun _ hp => whenIdle_of_idle hp

/-- Settles O33: `SC_Q` with every address probed is a step of its own, which only moves the phase. -/
theorem scanEndsAfterLastAddress : Obligations.ScanEndsAfterLastAddress := by
  unfold Obligations.ScanEndsAfterLastAddress
  intro s hr hp hn
  obtain ⟨-, -, -, -, -, hdone⟩ := step_quiet hr
  exact hdone hp hn

theorem probeScan_eq_responded_iff_showsResponse (o : ReadOutcome) : probeScan o = .responded ↔ showsResponse o := by
  simp [probeScan_eq_responded_iff, showsResponse, classify_eq_responded_iff, idleByte]

theorem probeScan_eq_noResponse_iff (o : ReadOutcome) : probeScan o = .noResponse ↔ ¬ showsResponse o := by
  rw [← probeScan_eq_responded_iff_showsResponse]
  cases probeScan o <;> simp

/-- Settles O32: the probe's answer decides between the toggle and the next address. -/
theorem scanMarksAnsweringAddress : Obligations.ScanMarksAnsweringAddress := by
  unfold Obligations.ScanMarksAnsweringAddress
  intro s hr hp
  obtain ⟨hstep, -⟩ := step_quiet hr
  refine ⟨fun hs => ?responded, fun hs => ?silent⟩
  case responded =>
    rw [hstep hp, State.scanAwait, bwdLen, (probeScan_eq_responded_iff_showsResponse _).2 hs]
    rfl
  case silent =>
    rw [hstep hp, State.scanAwait, bwdLen, (probeScan_eq_noResponse_iff _).2 hs]
    rfl

/-! ### Counts of the observation

How each update of the state moves the numbers of writes, settles and reads observed (R51, R53, R54). -/

section
variable (s : State)

@[simp] theorem writeCount_sent (b : List Byte) : (s.txWrite b).settle.writeCount = s.writeCount + 1 := by
  simp [State.writeCount, List.countP_cons, Event.isWrite]
@[simp] theorem settleCount_sent (b : List Byte) : (s.txWrite b).settle.settleCount = s.settleCount + 1 := by
  simp [State.settleCount, List.countP_cons, Event.isSettle]
@[simp] theorem readCount_sent (b : List Byte) : (s.txWrite b).settle.readCount = s.readCount := by
  simp [State.readCount, Event.isRead]

@[simp] theorem writeCount_advance : s.advance.writeCount = s.writeCount := by
  rcases advance_trace s with h | ⟨r, h⟩ <;> simp [State.writeCount, h, Event.isWrite]
@[simp] theorem settleCount_advance : s.advance.settleCount = s.settleCount := by
  rcases advance_trace s with h | ⟨r, h⟩ <;> simp [State.settleCount, h, Event.isSettle]
@[simp] theorem readCount_advance : s.advance.readCount = s.readCount := by
  rcases advance_trace s with h | ⟨r, h⟩ <;> simp [State.readCount, h, Event.isRead]

@[simp] theorem writeCount_scanAwait : s.scanAwait.writeCount = s.writeCount := by
  simp [State.scanAwait, State.writeCount, Event.isWrite]
@[simp] theorem settleCount_scanAwait : s.scanAwait.settleCount = s.settleCount := by
  simp [State.scanAwait, State.settleCount, Event.isSettle]
@[simp] theorem readCount_scanAwait : s.scanAwait.readCount = s.readCount + 1 := by
  simp [State.scanAwait, State.readCount, List.countP_cons, Event.isRead]

end

/-! ### Runs

What every step keeps holds at the end of every run. -/

theorem run_succ_eq_next {M : Host.Core} {k : Nat} {s t : M.State} (h : M.run (k + 1) s = .next t) :
    ∃ u, M.step s = .next u ∧ M.run k u = .next t := by
  unfold Host.Core.run at h
  split at h
  next u hu => exact ⟨u, hu, h⟩
  all_goals cases h

theorem run_keeps {P : State → Prop} (hstep : ∀ s t, P s → step s = .next t → P t) {k : Nat} {s t : State} (hs : P s)
    (h : Sys2Proof.core.run k s = .next t) : P t := by
  induction k generalizing s with
  | zero =>
    cases h
    exact hs
  | succ k ih =>
    obtain ⟨u, hu, hrun⟩ := run_succ_eq_next h
    exact ih (hstep s u hs hu) hrun

@[simp] theorem scanAnswer_resetIn (r : Response) (s : State) : (s.scanAnswer r).resetIn = s.resetIn := by cases r <;> rfl

@[simp] theorem compareAnswer_resetIn (r : Response) (s : State) : (s.compareAnswer r).resetIn = s.resetIn := by
  cases r <;> rfl

/-- No step of a sequence writes the reset input. -/
theorem SequenceStep.resetIn_eq {s t : State} (h : SequenceStep s t) : t.resetIn = s.resetIn := by
  cases h with
  | sent a c => simp
  | unsent op a c => rfl
  | scanAwait => exact scanAnswer_resetIn _ (s.txRead bwdLen)
  | scanDone => rfl
  | passStart => rcases passStart_cases s with ⟨-, hh⟩ | ⟨-, hh⟩ <;> simp [hh]
  | searchTest => rcases searchTest_cases s with ⟨-, hh⟩ | ⟨-, hh⟩ | ⟨-, hh⟩ <;> simp [hh]
  | compareAwait =>
    rcases compareAwait_cases s with ⟨r, -, hh⟩ | ⟨e, -, hh⟩ <;> simp [hh]
  | passCheck => rcases passCheck_cases s with ⟨-, hh⟩ | ⟨-, hh⟩ <;> simp [hh]

/-- Nothing from outside cuts in: no reset is due or counts down, and no request is pending. -/
def State.Undisturbed (s : State) : Prop := s.resetIn = none ∧ s.requests = []

theorem SequenceStep.undisturbed {s t : State} (h : SequenceStep s t) (hu : s.Undisturbed) : t.Undisturbed := by
  obtain ⟨hr, hq⟩ := hu
  obtain ⟨-, hrequests, -⟩ := h.samePort
  exact ⟨h.resetIn_eq.trans hr, hrequests.trans hq⟩

/-- An undisturbed block waits when it is idle and makes a step of its sequence when it is not. -/
theorem step_of_undisturbed {s t : State} (hu : s.Undisturbed) (h : step s = .next t) :
    (s.phase = .idle ∧ t = s.wait) ∨ (s.phase ≠ .idle ∧ SequenceStep s t) := by
  obtain ⟨hr, hq⟩ := hu
  rcases step_inversion h with ⟨hdue, -⟩ | ⟨hp, hi⟩ | ⟨hp, hs⟩
  · simp [hr] at hdue
  · rw [State.tick_of_no_reset hr] at hi
    cases hi with
    | wait => exact .inl ⟨hp, rfl⟩
    | request hne => simp [hq] at hne
  · rw [State.tick_of_no_reset hr] at hs
    exact .inr ⟨hp, hs⟩

theorem State.Undisturbed.of_step {s t : State} (hu : s.Undisturbed) (h : step s = .next t) : t.Undisturbed := by
  rcases step_of_undisturbed hu h with ⟨-, rfl⟩ | ⟨-, hstep⟩
  · exact hu
  · exact hstep.undisturbed hu

/-! ### The size of the occupancy set -/

theorem getLsbD_setOcc {occ : U64} {a : Nat} (ha : a < 64) (j : Nat) :
    (setOcc occ a).getLsbD j = (occ.getLsbD j || decide (a = j)) := by
  rw [setOcc, BitVec.getLsbD_or, ← BitVec.twoPow_eq, BitVec.getLsbD_twoPow, decide_eq_true ha, Bool.true_and]

theorem popCount_eq_card (occ : U64) : popCount occ = ((Finset.range 64).filter (occ.getLsbD · = true)).card := by
  rw [← Nat.count_eq_card_filter_range, Nat.count]
  simp [popCount]

/-- Marking an address above all those marked adds one to `|OCC|`. -/
theorem popCount_setOcc {occ : U64} {a : Nat} (ha : a < 64) (h : occ.toNat < 2 ^ a) :
    popCount (setOcc occ a) = popCount occ + 1 := by
  have hnew : occ.getLsbD a = false := Nat.testBit_lt_two_pow h
  have hins : (Finset.range 64).filter ((setOcc occ a).getLsbD · = true) =
      insert a ((Finset.range 64).filter (occ.getLsbD · = true)) := by
    ext j
    simp only [Finset.mem_filter, Finset.mem_insert, Finset.mem_range, getLsbD_setOcc ha, Bool.or_eq_true,
      decide_eq_true_eq]
    by_cases hj : a = j
    · simp [← hj, ha]
    · simp [hj, Ne.symm hj]
  rw [popCount_eq_card, hins, Finset.card_insert_of_notMem (by simp [hnew]), ← popCount_eq_card]

theorem popCount_zero : popCount 0#64 = 0 := by decide

/-! ### The cost of a SCAN

The frames sent and the reads made since SCAN's start, read off its registers at each phase (R200). Every frame is followed by one
settle, so the settles are counted by the same number. -/

/-- The frames a SCAN has sent when it stands where `s` does; at its end `66 + 2·|OCC|`. -/
def State.scanFrames (s : State) : Nat :=
  match s.phase with
  | .scBoff  => 0
  | .scQ     => s.scanix + 2 * popCount s.occ + 1
  | .scAwait => s.scanix + 2 * popCount s.occ + 2
  | .scTon   => s.scanix + 2 * popCount s.occ
  | .scToff  => s.scanix + 2 * popCount s.occ + 1
  | .scBon   => 65 + 2 * popCount s.occ
  | _        => 66 + 2 * popCount s.occ

/-- The reads a SCAN has made when it stands where `s` does; at its end 64. -/
def State.scanReads (s : State) : Nat :=
  match s.phase with
  | .scBoff          => 0
  | .scQ | .scAwait  => s.scanix
  | .scTon | .scToff => s.scanix + 1
  | _                => 64

/-- The observation of `t` counts what the SCAN has done since its start in `s`. -/
structure ScanCounted (s t : State) : Prop where
  writes  : t.writeCount = s.writeCount + t.scanFrames
  settles : t.settleCount = s.settleCount + t.scanFrames
  reads   : t.readCount = s.readCount + t.scanReads

/-- Where a SCAN that started in `s` can stand. -/
inductive ScanRun (s t : State) : Prop
  | running (hop : t.phase.op = some .scan) (hinv : t.Inv) (hc : ScanCounted s t)
  | ended (hp : t.phase = .idle) (hres : t.result = some (.mask t.occ)) (hc : ScanCounted s t)
  | failed (hp : t.phase = .idle) (hst : t.status ≠ .ok)

/-- A frame's own updates count the frame, and no read. -/
theorem advance_counts_frame {s : State} (hop : s.phase.op = some .scan) (hs : s.phase.sends = true) (hinv : s.Inv) :
    s.advance.scanFrames = s.scanFrames + 1 ∧ s.advance.scanReads = s.scanReads := by
  cases hp : s.phase <;> simp only [hp, Phase.op, Phase.sends, Option.some.injEq, reduceCtorEq] at hop hs <;>
    simp only [State.Inv, hp] at hinv <;>
    simp only [State.advance, hp, State.goto, State.finish, State.scanFrames, State.scanReads, and_true]
  case scBoff => simp [hinv, popCount_zero]
  case scToff => omega
  case scBon => omega

/-- A frame leads on in the SCAN, or to its end with `OCC` in `RESULT` (R191, R198). -/
theorem advance_in_scan {s : State} (hop : s.phase.op = some .scan) (hs : s.phase.sends = true) :
    s.advance.phase.op = some .scan ∨ (s.advance.phase = .idle ∧ s.advance.result = some (.mask s.advance.occ)) := by
  cases hp : s.phase <;> simp only [hp, Phase.op, Phase.sends, Option.some.injEq, reduceCtorEq] at hop hs <;>
    simp [State.advance, hp, Phase.op]

theorem scanAwait_op (s : State) : s.scanAwait.phase.op = some .scan := by
  rcases scanAwait_phase s with h | h <;> simp [h, Phase.op]

/-- A probe counts one read, and no frame: what a marked address adds to `2·|OCC|` is its toggle, still to be sent (R195). -/
theorem scanAwait_counts_read {s : State} (hp : s.phase = .scAwait) (hinv : s.Inv) :
    s.scanAwait.scanFrames = s.scanFrames ∧ s.scanAwait.scanReads = s.scanReads + 1 := by
  simp only [State.Inv, hp] at hinv
  obtain ⟨hix, hocc⟩ := hinv
  unfold State.scanAwait
  cases probeScan (s.env.nextRead bwdLen) with
  | responded =>
    refine ⟨?_, by simp [State.scanAnswer, State.scanReads, hp]⟩
    simp only [State.scanAnswer, State.scanFrames, hp, State.txRead_occ, State.txRead_scanix, popCount_setOcc hix hocc]
    omega
  | noResponse =>
    refine ⟨?_, by simp [State.scanAnswer, State.scanReads, hp]⟩
    simp only [State.scanAnswer, State.scanFrames, hp, State.txRead_occ, State.txRead_scanix]
    omega

/-- The end of the probes counts nothing (R194). -/
theorem scanDone_counts_nothing {s : State} (hp : s.phase = .scQ) (hn : s.scanix = 64) :
    s.scanDone.scanFrames = s.scanFrames ∧ s.scanDone.scanReads = s.scanReads := by
  simp only [State.scanDone, State.goto, State.scanFrames, State.scanReads, hp, hn, and_true]
  omega

/-- A frame written whole, its settle and its updates keep the counts right (R152). -/
theorem ScanCounted.sent {s t : State} (hc : ScanCounted s t) (b : List Byte) (hop : t.phase.op = some .scan)
    (hs : t.phase.sends = true) (hinv : t.Inv) : ScanCounted s (t.txWrite b).settle.advance := by
  obtain ⟨hwrites, hsettles, hreads⟩ := hc
  obtain ⟨hf, hr⟩ : (t.txWrite b).settle.advance.scanFrames = t.scanFrames + 1 ∧
      (t.txWrite b).settle.advance.scanReads = t.scanReads := advance_counts_frame (s := (t.txWrite b).settle) hop hs hinv
  constructor <;> simp [hf, hr, hwrites, hsettles, hreads, Nat.add_assoc]

/-- A probe keeps the counts right (R195). -/
theorem ScanCounted.probe {s t : State} (hc : ScanCounted s t) (hp : t.phase = .scAwait) (hinv : t.Inv) :
    ScanCounted s t.scanAwait := by
  obtain ⟨hwrites, hsettles, hreads⟩ := hc
  obtain ⟨hf, hr⟩ := scanAwait_counts_read hp hinv
  constructor <;> simp [hf, hr, hwrites, hsettles, hreads, Nat.add_assoc]

/-- Every step of a SCAN leads on in it, to its end, or to an error. -/
theorem SequenceStep.scanRun {s t u : State} (h : SequenceStep t u) (hop : t.phase.op = some .scan) (hinv : t.Inv)
    (hc : ScanCounted s t) : ScanRun s u := by
  have hinv' : u.Inv := h.inv hinv
  cases h with
  | sent a c hs =>
    have hc' := hc.sent (pack (fwd a c)) hop hs hinv
    rcases advance_in_scan (s := (t.txWrite (pack (fwd a c))).settle) hop hs with hop' | ⟨hp', hres⟩
    · exact .running hop' hinv' hc'
    · exact .ended hp' hres hc'
  | unsent => exact .failed rfl (by simp)
  | scanAwait hp => exact .running (scanAwait_op t) hinv' (hc.probe hp hinv)
  | scanDone hp hn =>
    obtain ⟨hf, hr⟩ := scanDone_counts_nothing hp hn
    obtain ⟨hwrites, hsettles, hreads⟩ := hc
    exact .running rfl hinv' ⟨hf ▸ hwrites, hf ▸ hsettles, hr ▸ hreads⟩
  | passStart hp => simp [hp, Phase.op] at hop
  | searchTest hp => simp [hp, Phase.op] at hop
  | compareAwait hp => simp [hp, Phase.op] at hop
  | passCheck hp => simp [hp, Phase.op] at hop

/-- Every step of an undisturbed block keeps a SCAN's run; once the SCAN has ended the block only waits. -/
theorem ScanRun.of_step {s t u : State} (hrun : ScanRun s t) (hu : t.Undisturbed) (h : step t = .next u) :
    ScanRun s u := by
  rcases step_of_undisturbed hu h with ⟨hp, rfl⟩ | ⟨hp, hstep⟩
  · cases hrun with
    | running hop => simp [hp, Phase.op] at hop
    | ended _ hres hc => exact .ended hp hres ⟨hc.writes, hc.settles, hc.reads⟩
    | failed _ hst => exact .failed hp hst
  · cases hrun with
    | running hop hinv hc => exact hstep.scanRun hop hinv hc
    | ended hidle => exact absurd hidle hp
    | failed hidle => exact absurd hidle hp

/-- At its start a SCAN has done nothing (R192). -/
theorem scanRun_start {s : State} (hp : s.phase = .scBoff) (hix : s.scanix = 0) (hocc : s.occ = 0) : ScanRun s s := by
  refine .running (by simp [hp, Phase.op]) (by simp [State.Inv, hp, hix, hocc]) ⟨?_, ?_, ?_⟩ <;>
    simp [State.scanFrames, State.scanReads, hp]

/-- Settles O34: every run of the SCAN keeps `ScanRun`, and of an idle block with STATUS OK that is the end with its counts. -/
theorem scanCost : Obligations.ScanCost := by
  unfold Obligations.ScanCost
  intro s t k hp hix hocc hr hq hrun hidle hok
  obtain ⟨-, hscan⟩ := run_keeps (P := fun t => t.Undisturbed ∧ ScanRun s t)
    (fun _ _ ⟨hu, hs⟩ h => ⟨hu.of_step h, hs.of_step hu h⟩) ⟨⟨hr, hq⟩, scanRun_start hp hix hocc⟩ hrun
  cases hscan with
  | running hop => simp [hidle, Phase.op] at hop
  | failed _ hst => exact absurd hok hst
  | ended _ hres hc =>
    obtain ⟨hwrites, hsettles, hreads⟩ := hc
    simp only [State.scanFrames, State.scanReads, hidle] at hwrites hsettles hreads
    exact ⟨hres, by omega, by omega, hreads⟩

end Sys2Proof.Machine

namespace Sys2Proof.Machine

/-! ### The commissioner's steps

A phase that sends a frame runs it on the state as it is, and the steps without a frame move only the registers that R213 to R223
name. -/

theorem step_runs {s : State} {i : Instr} (hr : s.resetIn = none) (h : fetchPhase s = .run i s) : step s = exec i s :=
  step_of_run ((fetch_of_no_reset hr).trans h)

/-- Settles O2: `PHASE` fetches its frame, with the operand its register holds. -/
theorem stepRunsFrameOfPhase : Obligations.StepRunsFrameOfPhase := by
  unfold Obligations.StepRunsFrameOfPhase
  intro s hr
  refine ⟨fun hp => ?_, fun hp hix => ?probe, fun hp => ?_, fun hp => ?_, fun hp => ?_, Or.rec (fun hp => ?_) fun hp => ?_,
    Or.rec (fun hp => ?_) fun hp => ?_, Or.rec (fun hp => ?_) fun hp => ?_, Or.rec (fun hp => ?_) fun hp => ?_,
    Or.rec (fun hp => ?_) fun hp => ?_, Or.rec (fun hp => ?_) fun hp => ?_, fun hp => ?_, fun hp => ?_, fun hp => ?_,
    fun hp => ?_, fun hp => ?_, fun hp => ?_, fun hp => ?_⟩ <;> refine step_runs hr ?_
  case probe => simp [fetchPhase, hp, nShort, shortOf, hix.ne]
  all_goals simp [fetchPhase, hp, shortOf, highByte, midByte, lowByte]

/-- Settles O35: an idle block runs COMMISSION's start. -/
theorem commissionStarts : Obligations.CommissionStarts := fun _ hp => whenIdle_of_idle hp

/-- Settles O36: `passStart` has these two cases. -/
theorem passStartsFromCeiling : Obligations.PassStartsFromCeiling := by
  unfold Obligations.PassStartsFromCeiling
  intro s hr hp
  obtain ⟨-, hstep, -⟩ := step_quiet hr
  rw [hstep hp]
  exact ⟨fun h => congrArg _ (if_pos h), fun h => congrArg _ (if_neg h)⟩

/-- Settles O37: `searchTest` has these three cases, which exclude each other. -/
theorem searchTestsWindow : Obligations.SearchTestsWindow := by
  unfold Obligations.SearchTestsWindow
  intro s hr hp
  obtain ⟨-, -, hstep, -⟩ := step_quiet hr
  rw [hstep hp, BitVec.le_def]
  rcases searchTest_cases s with ⟨h, hh⟩ | ⟨h, hh⟩ | ⟨h, hh⟩ <;> rw [hh]
  · refine ⟨fun _ => ⟨_, rfl, rfl, rfl, ?_, rfl, rfl⟩, by omega, by omega⟩
    rw [State.raise_errctx, context_eq_errorContext]
  · exact ⟨by omega, fun _ => rfl, by omega⟩
  · exact ⟨by omega, by omega, fun _ => rfl⟩

/-- COMMISSION's probe answers unless the read failed (R153). -/
theorem probeCommission_of_showsResponse {o : ReadOutcome} (h : showsResponse o) : probeCommission o = .ok .responded := by
  obtain ⟨x, rfl, b, hb, hne⟩ := h
  obtain ⟨c, t, rfl⟩ := List.exists_cons_of_ne_nil (List.ne_nil_of_mem hb)
  exact congrArg _ ((showsResponse_bytes_iff _).1 ⟨_, rfl, b, hb, hne⟩)

theorem probeCommission_of_silence {o : ReadOutcome} (h : ¬ showsResponse o) (hf : o ≠ .fail) :
    probeCommission o = .ok .noResponse := by
  rcases o with (_ | ⟨b, t⟩) | _ | _
  · rfl
  · refine congrArg _ ((classify_eq_noResponse_iff _).2 fun c hc => ?_)
    by_contra hne
    exact h ⟨_, rfl, c, hc, hne⟩
  · rfl
  · exact absurd rfl hf

theorem compareAwait_of_ok {s : State} {r : Response} (h : probeCommission (s.env.nextRead bwdLen) = .ok r) :
    s.compareAwait = (s.txRead bwdLen).compareAnswer r := by
  rw [State.compareAwait, h]

/-- Settles O38: the probe's outcome decides between the two moves of the window and the read error. -/
theorem compareMovesWindow : Obligations.CompareMovesWindow := by
  unfold Obligations.CompareMovesWindow
  intro s hr hp
  obtain ⟨-, -, -, hstep, -⟩ := step_quiet hr
  rw [hstep hp]
  refine ⟨fun h => ?responded, fun h hf => ?silent, fun h => ?fault⟩
  case responded =>
    rw [compareAwait_of_ok (probeCommission_of_showsResponse h)]
    rfl
  case silent =>
    rw [compareAwait_of_ok (probeCommission_of_silence h hf)]
    rfl
  case fault =>
    have hbusy : (s.txRead bwdLen).phase ≠ .idle := by simp [hp]
    have hread : s.env.nextRead bwdLen = .fail := h
    rw [State.compareAwait, hread]
    simp only [probeCommission]
    rw [State.raise_in_sequence hbusy (by decide), State.txRead, hread]
    rfl

/-- Settles O39: `passCheck` has these two cases. -/
theorem passEndSelectsDevice : Obligations.PassEndSelectsDevice := by
  unfold Obligations.PassEndSelectsDevice
  intro s hr hp
  obtain ⟨-, -, -, -, hstep, -⟩ := step_quiet hr
  rw [hstep hp]
  exact ⟨fun h => congrArg _ (if_pos h), fun h => congrArg _ (if_neg h)⟩

/-- Settles O40: the midpoint's value gives the rest by arithmetic. -/
theorem midpointHalvesWindow : Obligations.MidpointHalvesWindow := by
  unfold Obligations.MidpointHalvesWindow
  intro low high
  have hmid := windowMid_toNat low high
  refine ⟨hmid, fun hwide => ?_⟩
  rw [BitVec.lt_def, BitVec.lt_def, hmid]
  omega

/-! ### The window is never empty

The invariant rules out the empty window at `CM_TEST`, and no other step raises ProtocolInvariantError (R241, R256). -/

theorem advance_status (s : State) : s.advance.status = s.status ∨ s.advance.status = .ok := by
  unfold State.advance
  split <;> simp

/-- A step of a sequence from a state that meets the invariant raises no ProtocolInvariantError. -/
theorem SequenceStep.status_ne {s t : State} (h : SequenceStep s t) (hinv : s.Inv) (hs : s.status ≠ .protocolInvariantError) :
    t.status ≠ .protocolInvariantError := by
  cases h with
  | sent a c =>
    rcases advance_status (s.txWrite (pack (fwd a c))).settle with hh | hh <;> rw [hh]
    · exact hs
    · decide
  | unsent op a c => simp
  | scanAwait =>
    unfold State.scanAwait State.scanAnswer
    split <;> exact hs
  | scanDone => exact hs
  | passStart => rcases passStart_cases s with ⟨-, hh⟩ | ⟨-, hh⟩ <;> rw [hh] <;> exact hs
  | searchTest hp =>
    simp only [State.Inv, hp] at hinv
    rcases searchTest_cases s with ⟨hempty, -⟩ | ⟨-, hh⟩ | ⟨-, hh⟩
    · omega
    · rw [hh]; exact hs
    · rw [hh]; exact hs
  | compareAwait =>
    rcases compareAwait_cases s with ⟨r, -, hh⟩ | ⟨e, he, hh⟩ <;> rw [hh]
    · cases r <;> exact hs
    · simp [(probeCommission_eq_error he).2]
  | passCheck => rcases passCheck_cases s with ⟨-, hh⟩ | ⟨-, hh⟩ <;> rw [hh] <;> exact hs

/-- AWAIT's errors are the two of the transport (R151). -/
theorem awaitOutcome_ne_protocolInvariantError (o : ReadOutcome) : awaitOutcome o ≠ .error .protocolInvariantError := by
  rcases o with (_ | ⟨b, t⟩) | _ | _ <;> simp [awaitOutcome]

/-- A host operation raises no ProtocolInvariantError. -/
theorem exec_idle_status_ne {i : Instr} {s t : State} (hp : s.phase = .idle) (h : exec i s = .next t)
    (hs : s.status ≠ .protocolInvariantError) : t.status ≠ .protocolInvariantError := by
  rcases exec_idle_cases hp h with ⟨r, rfl⟩ | ⟨a, c, rfl⟩ | rfl | rfl | rfl
  · simp
  · rcases issueFrame_cases a c s with ⟨-, hh⟩ | ⟨-, hh⟩ <;> simp [hh]
  · unfold State.awaitFrame
    split
    · simp
    next e he =>
      rw [State.raise_status]
      rintro rfl
      exact awaitOutcome_ne_protocolInvariantError _ he
  · exact hs
  · exact hs

theorem IdleStep.status_ne {s t : State} (h : IdleStep s t) (hp : s.phase = .idle) (hs : s.status ≠ .protocolInvariantError) :
    t.status ≠ .protocolInvariantError := by
  cases h with
  | wait => exact hs
  | request _ _ ht => exact exec_idle_status_ne (by simpa using hp) ht hs

theorem step_status_ne {s t : State} (hinv : s.Inv) (hs : s.status ≠ .protocolInvariantError) (h : step s = .next t) :
    t.status ≠ .protocolInvariantError := by
  rcases step_inversion h with ⟨-, rfl⟩ | ⟨hp, hi⟩ | ⟨-, hseq⟩
  · simp
  · exact hi.status_ne hp hs
  · have htick : s.tick.Inv ↔ s.Inv := Iff.rfl
    exact hseq.status_ne (htick.2 hinv) hs

/-- Settles O45: every run keeps the invariant, which says `LOW < HIGH` at `CM_TEST`, and with it STATUS off the error. -/
theorem protocolInvariantErrorNeverRaised : Obligations.ProtocolInvariantErrorNeverRaised := by
  unfold Obligations.ProtocolInvariantErrorNeverRaised
  intro s t k hinv hs hrun
  obtain ⟨hinv', hs'⟩ := run_keeps (P := fun u => u.Inv ∧ u.status ≠ .protocolInvariantError)
    (fun u v ⟨hi, hu⟩ h => ⟨stepKeepsInvariant u v hi h, step_status_ne hi hu h⟩) ⟨hinv, hs⟩ hrun
  refine ⟨fun hp => ?_, hs'⟩
  simp only [State.Inv, hp] at hinv'
  exact BitVec.lt_def.2 hinv'.2

end Sys2Proof.Machine

namespace Sys2Proof.Machine

/-! ### Within a number of steps

What a run reaches, with a bound on its steps that adds up along the run. -/

/-- Within `k` steps the block stands in a state with property `Q`. -/
def Reaches (k : Nat) (s : State) (Q : State → Prop) : Prop := ∃ j t, j ≤ k ∧ Sys2Proof.core.run j s = .next t ∧ Q t

theorem Reaches.refl {s : State} {Q : State → Prop} (h : Q s) : Reaches 0 s Q := ⟨0, s, le_rfl, rfl, h⟩

theorem run_succ_of_step {s t : State} (h : step s = .next t) (k : Nat) :
    Sys2Proof.core.run (k + 1) s = Sys2Proof.core.run k t := by
  have hcore : Sys2Proof.core.step s = .next t := h
  simp only [Host.Core.run, hcore]

theorem Reaches.of_step {k : Nat} {s t : State} {Q : State → Prop} (h : step s = .next t) (ht : Reaches k t Q) :
    Reaches (k + 1) s Q := by
  obtain ⟨j, u, hj, hrun, hu⟩ := ht
  exact ⟨j + 1, u, Nat.succ_le_succ hj, (run_succ_of_step h j).trans hrun, hu⟩

theorem Reaches.one {s t : State} {Q : State → Prop} (h : step s = .next t) (ht : Q t) : Reaches 1 s Q :=
  (Reaches.refl ht).of_step h

theorem Reaches.le {j k : Nat} {s : State} {Q : State → Prop} (h : Reaches j s Q) (hjk : j ≤ k) : Reaches k s Q := by
  obtain ⟨i, t, hi, hrun, ht⟩ := h
  exact ⟨i, t, hi.trans hjk, hrun, ht⟩

theorem Reaches.imp {k : Nat} {s : State} {P Q : State → Prop} (h : Reaches k s P) (hPQ : ∀ t, P t → Q t) : Reaches k s Q := by
  obtain ⟨j, t, hj, hrun, ht⟩ := h
  exact ⟨j, t, hj, hrun, hPQ t ht⟩

theorem Reaches.trans {j k : Nat} {s : State} {P Q : State → Prop} (h : Reaches j s P) (hk : ∀ t, P t → Reaches k t Q) :
    Reaches (j + k) s Q := by
  obtain ⟨i, t, hi, hrun, ht⟩ := h
  have hreach : Reaches (i + k) s Q := by
    clear hi
    induction i generalizing s with
    | zero =>
      cases hrun
      exact (hk _ ht).le (Nat.le_add_left k 0)
    | succ i ih =>
      obtain ⟨u, hu, hrun⟩ := run_succ_eq_next hrun
      exact ((ih hrun).of_step hu).le (by omega)
  exact hreach.le (by omega)

/-! ### What is left of an operation

`stepsLeft` falls with every step of a sequence, and COMMISSION's frames are paid from `framesLeft`; a compare halves the window
(R222, R232, R235, R293). -/

/-- Halving a width of at least 2, rounded up, takes one off its logarithm. -/
theorem clog_half {w v : Nat} (hw : 2 ≤ w) (hv : v ≤ (w + 1) / 2) : Nat.clog 2 v + 1 ≤ Nat.clog 2 w := by
  rw [Nat.clog_of_two_le (n := w) (by decide) hw]
  exact Nat.succ_le_succ (Nat.clog_mono_right 2 hv)

/-- A window of 24-bit bounds is searched in 24 compares (R232). -/
theorem clog_width_le (low high : U24) : Nat.clog 2 (high.toNat - low.toNat) ≤ 24 := by
  refine Nat.clog_le_of_le_pow ?_
  have hlt := high.isLt
  omega

theorem comparesLeft_le (s : State) : s.comparesLeft ≤ 24 := clog_width_le s.low s.high

/-- Either answer to a compare leaves one compare fewer (R221, R222). -/
theorem compareAnswer_comparesLeft {s : State} (r : Response) (hp : s.phase = .cmAwait) (hinv : s.Inv) :
    (s.compareAnswer r).comparesLeft + 1 ≤ s.comparesLeft := by
  simp only [State.Inv, hp] at hinv
  obtain ⟨-, hwide, hcand⟩ := hinv
  have hmid := windowMid_toNat s.low s.high
  refine clog_half (by rw [State.width]; omega) ?_
  cases r <;> simp only [State.compareAnswer, State.width, hcand, hmid] <;> omega

/-- A sequence under way has a step left. -/
theorem stepsLeft_pos {s : State} (hp : s.phase ≠ .idle) (hinv : s.Inv) : 0 < s.stepsLeft := by
  cases h : s.phase <;> simp only [State.Inv, h] at hinv <;> simp only [State.stepsLeft]
  case idle => exact absurd h hp
  all_goals simp only [h]; omega

theorem advance_stepsLeft {s : State} (hs : s.phase.sends = true) (hinv : s.Inv) : s.advance.stepsLeft < s.stepsLeft := by
  cases hp : s.phase <;> simp only [hp, Phase.sends, Bool.false_eq_true] at hs <;> simp only [State.Inv, hp] at hinv <;>
    simp only [State.advance, hp, State.goto, State.finish, State.stepsLeft, State.comparesLeft, State.width] <;> omega

theorem scanAwait_stepsLeft {s : State} (hp : s.phase = .scAwait) (hinv : s.Inv) : s.scanAwait.stepsLeft < s.stepsLeft := by
  simp only [State.Inv, hp] at hinv
  unfold State.scanAwait
  cases probeScan (s.env.nextRead bwdLen) <;> simp only [State.scanAnswer, State.stepsLeft, hp, State.txRead_scanix] <;> omega

theorem passStart_stepsLeft {s : State} (hp : s.phase = .cmPass) (hinv : s.Inv) : s.passStart.stepsLeft < s.stepsLeft := by
  simp only [State.Inv, hp] at hinv
  have hcompares := comparesLeft_le { s with high := ceil, phase := .cmTest }
  rcases passStart_cases s with ⟨-, hh⟩ | ⟨hne, hh⟩ <;> rw [hh] <;> simp only [State.stepsLeft, State.goto, hp] <;> omega

theorem searchTest_stepsLeft {s : State} (hp : s.phase = .cmTest) (hinv : s.Inv) : s.searchTest.stepsLeft < s.stepsLeft := by
  simp only [State.Inv, hp] at hinv
  rcases searchTest_cases s with ⟨hempty, hh⟩ | ⟨-, hh⟩ | ⟨-, hh⟩ <;> rw [hh]
  · omega
  all_goals simp only [State.stepsLeft, State.goto, State.comparesLeft, State.width, hp]; omega

theorem compareAwait_stepsLeft {s : State} (hp : s.phase = .cmAwait) (hinv : s.Inv) :
    s.compareAwait.stepsLeft < s.stepsLeft := by
  rcases compareAwait_cases s with ⟨r, -, hh⟩ | ⟨e, -, hh⟩ <;> rw [hh]
  · have hcompares := compareAnswer_comparesLeft r hp hinv
    have hassigned : ((s.txRead bwdLen).compareAnswer r).assigned = s.assigned := by cases r <;> rfl
    have hsame : ((s.txRead bwdLen).compareAnswer r).comparesLeft = (s.compareAnswer r).comparesLeft := by cases r <;> rfl
    simp only [State.stepsLeft, compareAnswer_phase, hp, hassigned, hsame]
    omega
  · exact stepsLeft_pos (by simp [hp]) hinv

theorem passCheck_stepsLeft {s : State} (hp : s.phase = .cmCheck) : s.passCheck.stepsLeft < s.stepsLeft := by
  rcases passCheck_cases s with ⟨-, hh⟩ | ⟨-, hh⟩ <;> rw [hh] <;> simp only [State.stepsLeft, State.goto, hp] <;> omega

/-- Every step of a sequence is one of the steps left. -/
theorem SequenceStep.stepsLeft_lt {s t : State} (h : SequenceStep s t) (hinv : s.Inv) : t.stepsLeft < s.stepsLeft := by
  cases h with
  | sent a c hs => exact advance_stepsLeft (s := (s.txWrite (pack (fwd a c))).settle) hs hinv
  | unsent op a c hop hs => exact stepsLeft_pos (fun hp => by simp [hp, Phase.sends] at hs) hinv
  | scanAwait hp => exact scanAwait_stepsLeft hp hinv
  | scanDone hp hn => simp [State.scanDone, State.stepsLeft, hp, hn]
  | passStart hp => exact passStart_stepsLeft hp hinv
  | searchTest hp => exact searchTest_stepsLeft hp hinv
  | compareAwait hp => exact compareAwait_stepsLeft hp hinv
  | passCheck hp => exact passCheck_stepsLeft hp

/-- A sequence is never refused and never faults: with no reset due it always makes a step (R108, R250). -/
theorem exists_step {s : State} (hr : s.resetIn = none) (hp : s.phase ≠ .idle) : ∃ t, step s = .next t := by
  by_cases hs : s.phase.sends = true ∧ (s.phase = .scQ → s.scanix ≠ 64)
  · obtain ⟨op, a, c, -, h⟩ := step_frame hr hs.1 hs.2
    exact ⟨_, h⟩
  · have hquiet : s.phase.sends = false ∨ s.phase = .scQ ∧ s.scanix = 64 := by
      cases hsends : s.phase.sends with
      | false => exact .inl rfl
      | true => exact .inr (by simpa [hsends] using hs)
    obtain ⟨t, hf, -⟩ := fetchPhase_quiet hp hquiet
    exact ⟨t, step_of_internal ((fetch_of_no_reset hr).trans hf)⟩

/-- A sequence reaches its end within the steps left. -/
theorem reaches_idle {s : State} (hinv : s.Inv) (hr : s.resetIn = none) : Reaches s.stepsLeft s (·.phase = .idle) := by
  induction hn : s.stepsLeft using Nat.strong_induction_on generalizing s with
  | _ n ih =>
    by_cases hp : s.phase = .idle
    · exact (Reaches.refl hp).le (Nat.zero_le n)
    · obtain ⟨t, ht⟩ := exists_step hr hp
      have hstep : SequenceStep s t := by
        have h := step_in_sequence (by simp [hr]) hp ht
        rwa [State.tick_of_no_reset hr] at h
      have hlt : t.stepsLeft < n := hn ▸ hstep.stepsLeft_lt hinv
      exact ((ih _ hlt (hstep.inv hinv) (hstep.resetIn_eq.trans hr) rfl).of_step ht).le hlt

/-- Settles O46: by induction on the steps left, which every step lowers. -/
theorem everySequenceEnds : Obligations.EverySequenceEnds := by
  unfold Obligations.EverySequenceEnds
  intro s hinv hr
  refine ⟨reaches_idle hinv hr, fun hp => ?_, fun hp => ?_⟩ <;> simp only [State.stepsLeft, hp]

end Sys2Proof.Machine

namespace Sys2Proof.Machine

/-! ### COMMISSION's frames

Every frame COMMISSION sends is paid from `framesLeft` (R235). -/

section
variable {s : State}

@[simp] theorem writeCount_txRead (m : Nat) : (s.txRead m).writeCount = s.writeCount := by
  simp [State.writeCount, Event.isWrite]
@[simp] theorem settleCount_txRead (m : Nat) : (s.txRead m).settleCount = s.settleCount := by
  simp [State.settleCount, Event.isSettle]
@[simp] theorem readCount_txRead (m : Nat) : (s.txRead m).readCount = s.readCount + 1 := by
  simp [State.readCount, List.countP_cons, Event.isRead]
@[simp] theorem writeCount_txWrite (b : List Byte) : (s.txWrite b).writeCount = s.writeCount + 1 := by
  simp [State.writeCount, List.countP_cons, Event.isWrite]
@[simp] theorem writeCount_raise (op : HostOp) (e : ErrCode) : (s.raise op e).writeCount = s.writeCount := by
  simp [State.writeCount, Event.isWrite]
@[simp] theorem writeCount_compareAnswer (r : Response) : (s.compareAnswer r).writeCount = s.writeCount := by
  simp [State.writeCount]
@[simp] theorem settleCount_compareAnswer (r : Response) : (s.compareAnswer r).settleCount = s.settleCount := by
  simp [State.settleCount]
@[simp] theorem readCount_compareAnswer (r : Response) : (s.compareAnswer r).readCount = s.readCount := by
  simp [State.readCount]

/-- A step of COMMISSION leads on in it or ends it (R212). -/
theorem SequenceStep.commission_or_idle {t : State} (h : SequenceStep s t) (hop : s.phase.op = some .commission) :
    t.phase.op = some .commission ∨ t.phase = .idle := by
  cases h with
  | sent a c hs =>
    cases hp : s.phase <;> simp only [hp, Phase.op, Phase.sends, Option.some.injEq, reduceCtorEq] at hop hs <;>
      simp [State.advance, hp, Phase.op]
  | unsent => exact .inr rfl
  | scanAwait hp => simp [hp, Phase.op] at hop
  | scanDone hp => simp [hp, Phase.op] at hop
  | passStart => rcases passStart_cases s with ⟨-, hh⟩ | ⟨-, hh⟩ <;> simp [hh, Phase.op]
  | searchTest => rcases searchTest_cases s with ⟨-, hh⟩ | ⟨-, hh⟩ | ⟨-, hh⟩ <;> simp [hh, Phase.op]
  | compareAwait => rcases compareAwait_cases s with ⟨r, -, hh⟩ | ⟨e, -, hh⟩ <;> simp [hh, Phase.op]
  | passCheck => rcases passCheck_cases s with ⟨-, hh⟩ | ⟨-, hh⟩ <;> simp [hh, Phase.op]

/-- A frame's own updates take the frame off those left. -/
theorem advance_framesLeft (hop : s.phase.op = some .commission) (hs : s.phase.sends = true) (hinv : s.Inv) :
    s.advance.framesLeft + 1 ≤ s.framesLeft := by
  cases hp : s.phase <;> simp only [hp, Phase.op, Phase.sends, Option.some.injEq, reduceCtorEq, Bool.false_eq_true] at hop hs <;>
    simp only [State.Inv, hp] at hinv <;>
    simp only [State.advance, hp, State.goto, State.finish, State.framesLeft, State.comparesLeft, State.width] <;> omega

theorem framesLeft_pos (hop : s.phase.op = some .commission) (hs : s.phase.sends = true) (hinv : s.Inv) : 1 ≤ s.framesLeft :=
  (Nat.le_add_left 1 _).trans (advance_framesLeft hop hs hinv)

theorem passStart_framesLeft (hp : s.phase = .cmPass) (hinv : s.Inv) : s.passStart.framesLeft ≤ s.framesLeft := by
  simp only [State.Inv, hp] at hinv
  have hcompares := comparesLeft_le { s with high := ceil, phase := .cmTest }
  rcases passStart_cases s with ⟨-, hh⟩ | ⟨hne, hh⟩ <;> rw [hh] <;> simp only [State.framesLeft, State.goto, hp] <;> omega

theorem searchTest_framesLeft (hp : s.phase = .cmTest) : s.searchTest.framesLeft ≤ s.framesLeft := by
  rcases searchTest_cases s with ⟨-, hh⟩ | ⟨-, hh⟩ | ⟨-, hh⟩ <;> rw [hh]
  · exact Nat.zero_le _
  all_goals simp only [State.framesLeft, State.goto, State.comparesLeft, State.width, hp]; omega

theorem passCheck_framesLeft (hp : s.phase = .cmCheck) : s.passCheck.framesLeft ≤ s.framesLeft := by
  rcases passCheck_cases s with ⟨-, hh⟩ | ⟨-, hh⟩ <;> rw [hh] <;> simp only [State.framesLeft, State.goto, hp] <;> omega

/-- A compare's answer pays the next compare's four frames with the half of the window it gives up. -/
theorem compareAnswer_framesLeft (r : Response) (hp : s.phase = .cmAwait) (hinv : s.Inv) :
    (s.compareAnswer r).framesLeft ≤ s.framesLeft := by
  have hcompares := compareAnswer_comparesLeft r hp hinv
  have hassigned : (s.compareAnswer r).assigned = s.assigned := by cases r <;> rfl
  simp only [State.framesLeft, compareAnswer_phase, hp, hassigned]
  omega

/-- The frames sent and those left are never more than before. -/
theorem SequenceStep.frames_le {t : State} (h : SequenceStep s t) (hop : s.phase.op = some .commission) (hinv : s.Inv) :
    t.writeCount + t.framesLeft ≤ s.writeCount + s.framesLeft := by
  cases h with
  | sent a c hs =>
    have hleft := advance_framesLeft (s := (s.txWrite (pack (fwd a c))).settle) hop hs hinv
    rw [writeCount_advance, writeCount_sent, Nat.add_assoc, Nat.add_comm 1]
    exact Nat.add_le_add_left hleft _
  | unsent op a c _ hs =>
    rw [writeCount_raise, writeCount_txWrite]
    exact Nat.add_le_add_left (framesLeft_pos hop hs hinv) _
  | scanAwait hp => simp [hp, Phase.op] at hop
  | scanDone hp => simp [hp, Phase.op] at hop
  | passStart hp =>
    have hcount : s.passStart.writeCount = s.writeCount := by
      rcases passStart_cases s with ⟨-, hh⟩ | ⟨-, hh⟩ <;> rw [hh] <;> rfl
    exact hcount ▸ Nat.add_le_add_left (passStart_framesLeft hp hinv) _
  | searchTest hp =>
    have hcount : s.searchTest.writeCount = s.writeCount := by
      rcases searchTest_cases s with ⟨-, hh⟩ | ⟨-, hh⟩ | ⟨-, hh⟩ <;> rw [hh]
      · exact writeCount_raise _ _
      all_goals rfl
    exact hcount ▸ Nat.add_le_add_left (searchTest_framesLeft hp) _
  | compareAwait hp =>
    rcases compareAwait_cases s with ⟨r, -, hh⟩ | ⟨e, -, hh⟩ <;> rw [hh]
    · rw [writeCount_compareAnswer, writeCount_txRead]
      exact Nat.add_le_add_left (compareAnswer_framesLeft (s := s.txRead bwdLen) r hp hinv) _
    · rw [writeCount_raise, writeCount_txRead]
      exact Nat.add_le_add_left (Nat.zero_le _) _
  | passCheck hp =>
    have hcount : s.passCheck.writeCount = s.writeCount := by
      rcases passCheck_cases s with ⟨-, hh⟩ | ⟨-, hh⟩ <;> rw [hh] <;> rfl
    exact hcount ▸ Nat.add_le_add_left (passCheck_framesLeft hp) _

end

/-- Where an undisturbed COMMISSION with `n` frames to its name can stand. -/
structure FramesPaid (n : Nat) (t : State) : Prop where
  undisturbed : t.Undisturbed
  inv         : t.Inv
  commission  : t.phase.op = some .commission ∨ t.phase = .idle
  paid        : t.writeCount + t.framesLeft ≤ n

theorem FramesPaid.of_step {n : Nat} {t u : State} (hpaid : FramesPaid n t) (h : step t = .next u) : FramesPaid n u := by
  obtain ⟨hu, hinv, hop, hn⟩ := hpaid
  have hinv' := stepKeepsInvariant t u hinv h
  rcases step_of_undisturbed hu h with ⟨hp, rfl⟩ | ⟨hp, hstep⟩
  · exact ⟨hu, hinv', .inr hp, hn⟩
  · have hop := hop.resolve_right hp
    exact ⟨hu.of_step h, hinv', hstep.commission_or_idle hop, (hstep.frames_le hop hinv).trans hn⟩

/-- Settles O42: no step raises the frames sent and left together, which are 6600 at COMMISSION's start. -/
theorem commissionFrameBound : Obligations.CommissionFrameBound := by
  unfold Obligations.CommissionFrameBound
  intro s t k hp hlow hassigned hr hq hrun
  have hstart : FramesPaid (s.writeCount + 6600) s :=
    ⟨⟨hr, hq⟩, by simp [State.Inv, hp, hlow, hassigned], .inl (by simp [hp, Phase.op]), by simp [State.framesLeft, hp]⟩
  have hend := run_keeps (fun _ _ hpaid h => FramesPaid.of_step hpaid h) hstart hrun
  exact (Nat.le_add_right _ _).trans hend.paid

end Sys2Proof.Machine

namespace Sys2Proof.Machine

/-! ### The cost of a COMMISSION

The frames sent since COMMISSION's start are those of its phases, read off the registers, and four for every compare that has been
read (R240). Every frame is followed by one settle. -/

/-- The frames a COMMISSION has sent when it stands where `s` does, but for those of the compares already read; at its end
`6 + 7·ASSIGNED + 2`. -/
def State.framesOutsideCompares (s : State) : Nat :=
  match s.phase with
  | .cmReset1 => 0
  | .cmReset2 => 1
  | .cmInit1  => 2
  | .cmInit2  => 3
  | .cmRand1  => 4
  | .cmRand2  => 5
  | .cmSm     => 7 * s.assigned + 7
  | .cmSl     => 7 * s.assigned + 8
  | .cmCmp    => 7 * s.assigned + 9
  | .cmAwait  => 7 * s.assigned + 10
  | .cmXm     => 7 * s.assigned + 7
  | .cmXl     => 7 * s.assigned + 8
  | .cmProg   => 7 * s.assigned + 9
  | .cmWdraw  => 7 * s.assigned + 10
  | .cmLon    => 7 * s.assigned + 11
  | .cmLoff   => 7 * s.assigned + 12
  | .cmBon    => 7 * s.assigned + 7
  | .idle     => 7 * s.assigned + 8
  | _         => 7 * s.assigned + 6

/-- The observation of `t` counts what the COMMISSION has done since its start in `s`. -/
structure CommissionCounted (s t : State) : Prop where
  reads   : s.readCount ≤ t.readCount
  writes  : t.writeCount = s.writeCount + t.framesOutsideCompares + 4 * (t.readCount - s.readCount)
  settles : t.settleCount + s.writeCount = s.settleCount + t.writeCount

/-- Where a COMMISSION that started in `s` can stand. -/
inductive CommissionRun (s t : State) : Prop
  | running (hop : t.phase.op = some .commission) (hinv : t.Inv) (hc : CommissionCounted s t)
  | ended (hp : t.phase = .idle) (hres : t.result = some (.count t.assigned)) (hle : t.assigned ≤ 64)
      (hc : CommissionCounted s t)
  | failed (hp : t.phase = .idle) (hst : t.status ≠ .ok)

/-- A frame's own updates count the frame. -/
theorem advance_counts_commission_frame {s : State} (hop : s.phase.op = some .commission) (hs : s.phase.sends = true)
    (hinv : s.Inv) : s.advance.framesOutsideCompares = s.framesOutsideCompares + 1 := by
  cases hp : s.phase <;> simp only [hp, Phase.op, Phase.sends, Option.some.injEq, reduceCtorEq, Bool.false_eq_true] at hop hs <;>
    simp only [State.Inv, hp] at hinv <;>
    simp only [State.advance, hp, State.goto, State.finish, State.framesOutsideCompares]
  case cmRand2 => omega
  case cmLoff => omega

/-- A frame leads on in COMMISSION, or to its end with `ASSIGNED` in `RESULT` (R212, R230). -/
theorem advance_in_commission {s : State} (hop : s.phase.op = some .commission) (hs : s.phase.sends = true) (hinv : s.Inv) :
    s.advance.phase.op = some .commission ∨
    (s.advance.phase = .idle ∧ s.advance.result = some (.count s.advance.assigned) ∧ s.advance.assigned ≤ 64) := by
  cases hp : s.phase <;> simp only [hp, Phase.op, Phase.sends, Option.some.injEq, reduceCtorEq, Bool.false_eq_true] at hop hs <;>
    simp only [State.Inv, hp] at hinv <;> simp [State.advance, hp, Phase.op]
  case cmBon => exact hinv

/-- A step without a transport call, and without a frame to count, keeps the counts right. -/
theorem CommissionCounted.quiet {s t u : State} (hc : CommissionCounted s t) (ht : u.trace = t.trace)
    (hf : u.framesOutsideCompares = t.framesOutsideCompares) : CommissionCounted s u := by
  obtain ⟨hreads, hwrites, hsettles⟩ := hc
  constructor <;> simpa [State.readCount, State.writeCount, State.settleCount, ht, hf]

/-- A frame written whole, its settle and its updates keep the counts right (R152). -/
theorem CommissionCounted.sent {s t : State} (hc : CommissionCounted s t) (b : List Byte)
    (hop : t.phase.op = some .commission) (hs : t.phase.sends = true) (hinv : t.Inv) :
    CommissionCounted s (t.txWrite b).settle.advance := by
  obtain ⟨hreads, hwrites, hsettles⟩ := hc
  have hf : (t.txWrite b).settle.advance.framesOutsideCompares = t.framesOutsideCompares + 1 :=
    advance_counts_commission_frame (s := (t.txWrite b).settle) hop hs hinv
  constructor <;> simp only [readCount_advance, writeCount_advance, settleCount_advance, readCount_sent, writeCount_sent,
    settleCount_sent, hf] <;> omega

/-- A compare that is read moves its four frames to those counted by the reads (R221). -/
theorem CommissionCounted.compare {s t : State} (hc : CommissionCounted s t) (r : Response) (hp : t.phase = .cmAwait) :
    CommissionCounted s ((t.txRead bwdLen).compareAnswer r) := by
  obtain ⟨hreads, hwrites, hsettles⟩ := hc
  have hassigned : ((t.txRead bwdLen).compareAnswer r).assigned = t.assigned := by cases r <;> rfl
  simp only [State.framesOutsideCompares, hp] at hwrites
  constructor <;> simp only [readCount_compareAnswer, writeCount_compareAnswer, settleCount_compareAnswer, readCount_txRead,
    writeCount_txRead, settleCount_txRead, State.framesOutsideCompares, compareAnswer_phase, hassigned] <;> omega

/-- Every step of a COMMISSION leads on in it, to its end, or to an error. -/
theorem SequenceStep.commissionRun {s t u : State} (h : SequenceStep t u) (hop : t.phase.op = some .commission) (hinv : t.Inv)
    (hc : CommissionCounted s t) : CommissionRun s u := by
  have hinv' : u.Inv := h.inv hinv
  cases h with
  | sent a c hs =>
    have hc' := hc.sent (pack (fwd a c)) hop hs hinv
    rcases advance_in_commission (s := (t.txWrite (pack (fwd a c))).settle) hop hs hinv with hop' | ⟨hp', hres, hle⟩
    · exact .running hop' hinv' hc'
    · exact .ended hp' hres hle hc'
  | unsent => exact .failed rfl (by simp)
  | scanAwait hp => simp [hp, Phase.op] at hop
  | scanDone hp => simp [hp, Phase.op] at hop
  | passStart hp =>
    rcases passStart_cases t with ⟨-, hh⟩ | ⟨-, hh⟩ <;> rw [hh] at hinv' ⊢ <;>
      exact .running rfl hinv' (hc.quiet rfl (by simp [State.framesOutsideCompares, State.goto, hp]))
  | searchTest hp =>
    rcases searchTest_cases t with ⟨-, hh⟩ | ⟨-, hh⟩ | ⟨-, hh⟩ <;> rw [hh] at hinv' ⊢
    · exact .failed rfl (by simp)
    all_goals exact .running rfl hinv' (hc.quiet rfl (by simp [State.framesOutsideCompares, State.goto, hp]))
  | compareAwait hp =>
    rcases compareAwait_cases t with ⟨r, -, hh⟩ | ⟨e, he, hh⟩ <;> rw [hh] at hinv' ⊢
    · exact .running (by simp [Phase.op]) hinv' (hc.compare r hp)
    · exact .failed rfl (by simp [(probeCommission_eq_error he).2])
  | passCheck hp =>
    rcases passCheck_cases t with ⟨-, hh⟩ | ⟨-, hh⟩ <;> rw [hh] at hinv' ⊢ <;>
      exact .running rfl hinv' (hc.quiet rfl (by simp [State.framesOutsideCompares, State.goto, hp]))

/-- Every step of an undisturbed block keeps a COMMISSION's run; once COMMISSION has ended the block only waits. -/
theorem CommissionRun.of_step {s t u : State} (hrun : CommissionRun s t) (hu : t.Undisturbed) (h : step t = .next u) :
    CommissionRun s u := by
  rcases step_of_undisturbed hu h with ⟨hp, rfl⟩ | ⟨hp, hstep⟩
  · cases hrun with
    | running hop => simp [hp, Phase.op] at hop
    | ended _ hres hle hc => exact .ended hp hres hle (hc.quiet rfl rfl)
    | failed _ hst => exact .failed hp hst
  · cases hrun with
    | running hop hinv hc => exact hstep.commissionRun hop hinv hc
    | ended hidle => exact absurd hidle hp
    | failed hidle => exact absurd hidle hp

/-- At its start a COMMISSION has done nothing (R213). -/
theorem commissionRun_start {s : State} (hp : s.phase = .cmReset1) (hlow : s.low = 0) (hassigned : s.assigned = 0) :
    CommissionRun s s := by
  refine .running (by simp [hp, Phase.op]) (by simp [State.Inv, hp, hlow, hassigned]) ⟨le_rfl, ?_, rfl⟩
  simp [State.framesOutsideCompares, hp]

/-- Settles O41: every run of the COMMISSION keeps `CommissionRun`, and of an idle block with STATUS OK that is the end with its
counts. -/
theorem commissionCost : Obligations.CommissionCost := by
  unfold Obligations.CommissionCost
  intro s t k hp hlow hassigned hr hq hrun hidle hok
  obtain ⟨-, hcommission⟩ := run_keeps (P := fun t => t.Undisturbed ∧ CommissionRun s t)
    (fun _ _ ⟨hu, hs⟩ h => ⟨hu.of_step h, hs.of_step hu h⟩) ⟨⟨hr, hq⟩, commissionRun_start hp hlow hassigned⟩ hrun
  cases hcommission with
  | running hop => simp [hidle, Phase.op] at hop
  | failed _ hst => exact absurd hok hst
  | ended _ hres hle hc =>
    obtain ⟨hreads, hwrites, hsettles⟩ := hc
    simp only [State.framesOutsideCompares, hidle] at hwrites
    exact ⟨hres, hle, by omega, by omega⟩

end Sys2Proof.Machine

namespace Sys2Proof.Machine

/-! ### A sequence on the reference bus

The reference bus takes every frame whole and hands it to the slaves (R67), so what a step of COMMISSION does there can be said of
the registers and the bus alone. -/

/-- What COMMISSION's run on the reference bus depends on. -/
structure View where
  phase    : Phase
  low      : U24
  high     : U24
  cand     : U24
  assigned : Nat
  bus      : Bus

/-- The state stands on the reference bus with these registers. -/
structure State.Shows (s : State) (v : View) : Prop where
  bus      : s.onReferenceBus v.bus
  phase    : s.phase = v.phase
  low      : s.low = v.low
  high     : s.high = v.high
  cand     : s.cand = v.cand
  assigned : s.assigned = v.assigned

section
variable {s : State} {v : View} {b : Bus}

theorem State.onReferenceBus.no_reset (h : s.onReferenceBus b) : s.resetIn = none := by
  obtain ⟨-, -, -, hr, -⟩ := h
  exact hr

theorem State.onReferenceBus.nextWrite_eq (h : s.onReferenceBus b) : s.env.nextWrite = .written 34 := by
  obtain ⟨hb, hw, -⟩ := h
  simp [Env.nextWrite, hb, hw, listed]

/-- A frame written to the bus is the frame the slaves take (R67, D9). -/
theorem frameIn_pack_fwd {cmd : Cmd} {i : Instr} {a c : Byte} (hd : cmd.distinct = true) (hf : framePair cmd i = some (a, c)) :
    frameIn cmd (pack (fwd a c)) = some i := by
  have hbuf : decodeBuffer 16 (pack (fwd a c)) = some (a ++ c) := decodeBuffer_pack _
  simp only [frameIn, hbuf, slaveFrame, decodeFrame_append, decodePair_of_framePair hd hf]

/-- A frame sent on the reference bus reaches every slave. -/
theorem State.onReferenceBus.sent {i : Instr} {a c : Byte} (h : s.onReferenceBus b)
    (hf : framePair s.cfg.cmd i = some (a, c)) : (s.sent a c).onReferenceBus (b.deliver s.env.draws (some i)) := by
  have hwrite := h.nextWrite_eq
  obtain ⟨hb, hw, hread, hr, hd⟩ := h
  refine ⟨?_, by simp [State.sent, Env.afterWrite, hw], hread, hr, hd⟩
  simp [State.sent, Env.afterWrite, hb, hwrite, Bus.afterWrite, (writeComplete_iff _).2, frameIn_pack_fwd hd hf]

/-- The frame COMMISSION sends next, with its operand from the registers (R214 to R230); none where it sends none. -/
def View.frame (v : View) : Option Instr :=
  match v.phase with
  | .cmReset1 | .cmReset2 => some .bcReset
  | .cmInit1 | .cmInit2   => some .initialise
  | .cmRand1 | .cmRand2   => some .randomise
  | .cmSh | .cmXh         => some (.searchaddrh (highByte v.cand))
  | .cmSm | .cmXm         => some (.searchaddrm (midByte v.cand))
  | .cmSl | .cmXl         => some (.searchaddrl (lowByte v.cand))
  | .cmCmp                => some .compare
  | .cmProg               => some (.programShort (shortOf v.assigned))
  | .cmWdraw              => some .withdraw
  | .cmLon                => some (.saOn (shortOf v.assigned))
  | .cmLoff               => some (.saOff (shortOf v.assigned))
  | .cmTerm               => some .terminate
  | .cmBon                => some .bcOn
  | _                     => none

/-- What the block runs on the reference bus is that frame. -/
theorem State.Shows.runs {i : Instr} (h : s.Shows v) (hi : v.frame = some i) : step s = exec i s := by
  obtain ⟨p, low, high, c, a, b⟩ := v
  refine step_runs h.bus.no_reset ?_
  cases p <;> cases hi <;> simp [fetchPhase, h.phase, h.cand, h.assigned]

theorem View.exists_framePair {i : Instr} (hi : v.frame = some i) (cmd : Cmd) : ∃ a c, framePair cmd i = some (a, c) := by
  obtain ⟨p, low, high, c, a, b⟩ := v
  cases p <;> cases hi <;> exact ⟨_, _, rfl⟩

/-- A frame of COMMISSION on the reference bus moves on to the next phase, with every register as it was. -/
theorem State.Shows.reaches_sent {i : Instr} {q : Phase} (h : s.Shows v) (hi : v.frame = some i)
    (hq : v.phase.following = some q) :
    ∃ n, Reaches 1 s (·.Shows { v with phase := q, bus := v.bus.deliver n (some i) }) := by
  obtain ⟨a, c, hpair⟩ := View.exists_framePair hi s.cfg.cmd
  refine ⟨s.env.draws, Reaches.one ((h.runs hi).trans (exec_frame_moves h.bus.nextWrite_eq hpair h.phase hq)) ?_⟩
  exact ⟨h.bus.sent hpair, rfl, h.low, h.high, h.cand, h.assigned⟩

end

/-! ### Frames that the slaves only act on

All frames of COMMISSION but RANDOMISE and COMPARE do to each slave what R69 to R77 say and nothing else, while no search is lost
and no search address is spoilt. -/

/-- The frames that neither draw a long address nor are answered (R71, R73, R77). -/
def plainFrame : Instr → Bool
  | .randomise | .compare | .queryStatus _ => false
  | _ => true

theorem slaveEffect_drawn {i : Instr} (h : plainFrame i = true) (x : U24) (d : Slave) :
    slaveEffect x i d = slaveEffect 0 i d := by
  cases i with
  | randomise => cases h
  | _ => rfl

theorem actAll_of_plain {i : Instr} (h : plainFrame i = true) (n : Nat) (ds : List Slave) :
    actAll n (some i) ds = ds.map (slaveEffect 0 i) := by
  simp only [actAll, slaveEffect_drawn h]
  exact List.ext_getElem? fun j => by simp

theorem Bus.deliver_reply_of_plain {b : Bus} {n : Nat} {i : Instr} (h : plainFrame i = true) :
    (b.deliver n (some i)).reply = none :=
  answerAll_eq_none fun d _ status => slaveAnswer_eq_none (by rintro rfl; simp [plainFrame] at h)
    (by rintro k rfl; simp [plainFrame] at h) status d

theorem Bus.deliver_of_plain {b : Bus} {n : Nat} {i : Instr} {q : SearchSeq} {r : Search} (h : plainFrame i = true)
    (hl : b.search ≠ .lost) (hq : b.seq.after (some i) = (q, .never)) (hr : b.search.after (some i) = r) :
    b.deliver n (some i) = { slaves := b.slaves.map (slaveEffect 0 i), seq := q, search := r, reply := none } := by
  have hslaves : (b.deliver n (some i)).slaves = b.slaves.map (slaveEffect 0 i) := by
    rw [Bus.deliver_slaves _ (Search.after_ne_lost _ hl), hq]
    exact actAll_of_plain h n b.slaves
  have hseq : (b.deliver n (some i)).seq = q := congrArg Prod.fst hq
  rw [← hslaves, ← Bus.deliver_reply_of_plain (b := b) (n := n) h, ← hseq, ← hr]
  rfl

/-! ### A search address, a compare and its answer -/

/-- A device in addressing mode has stored the search address (R72). -/
def storeAddress (c : U24) (d : Slave) : Slave := if d.init then { d with sr := c } else d

/-- The bus after the three frames of the search address `c` with nothing between them. -/
def Bus.addressed (c : U24) (b : Bus) : Bus :=
  { slaves := b.slaves.map (storeAddress c), seq := .ready, search := .opened, reply := none }

theorem highByte_append_midByte_append_lowByte (c : U24) : highByte c ++ midByte c ++ lowByte c = c := by
  apply BitVec.eq_of_getLsbD_eq
  intro j hj
  simp only [highByte, midByte, lowByte, BitVec.getLsbD_append, BitVec.getLsbD_extractLsb']
  interval_cases j <;> simp

theorem slaveEffect_searchAddress (c : U24) (d : Slave) :
    slaveEffect 0 (.searchaddrl (lowByte c)) (slaveEffect 0 (.searchaddrm (midByte c))
      (slaveEffect 0 (.searchaddrh (highByte c)) d)) = storeAddress c d := by
  cases hi : d.init with
  | false => simp [slaveEffect, storeAddress, hi]
  | true => simp [slaveEffect, storeAddress, hi, setLowByte_setMidByte_setHighByte, highByte_append_midByte_append_lowByte]

theorem Bus.deliver_address {b : Bus} (hl : b.search ≠ .lost) (c : U24) (n₁ n₂ n₃ : Nat) :
    ((b.deliver n₁ (some (.searchaddrh (highByte c)))).deliver n₂ (some (.searchaddrm (midByte c)))).deliver n₃
      (some (.searchaddrl (lowByte c))) = b.addressed c := by
  obtain ⟨hmid, hlow⟩ := b.seq.high_mid_low
  have hopen : b.search.after (some (.searchaddrh (highByte c))) = .opened := Search.after_searches rfl hl
  have hsecond (ds : List Slave) := Bus.deliver_of_plain (b := ⟨ds, b.seq.sendHigh, .opened, none⟩) (n := n₂)
    (i := .searchaddrm (midByte c)) rfl (by simp) (Prod.ext rfl hmid) rfl
  have hthird (ds : List Slave) := Bus.deliver_of_plain (b := ⟨ds, b.seq.sendHigh.sendMid.1, .opened, none⟩) (n := n₃)
    (i := .searchaddrl (lowByte c)) rfl (by simp) hlow rfl
  rw [Bus.deliver_of_plain rfl hl rfl hopen, hsecond]
  refine (hthird _).trans ?_
  rw [List.map_map, List.map_map]
  exact congrArg (Bus.mk · .ready .opened none) (List.map_congr_left fun d _ => slaveEffect_searchAddress c d)

/-- The search address has been used up, and its answer read. -/
def Bus.searched (c : U24) (b : Bus) : Bus := { b.addressed c with seq := .idle }

/-- Does an active device answer a compare at `c` (R73)? -/
def Bus.Hears (c : U24) (b : Bus) : Prop := ∃ d ∈ b.slaves, activeSlave d = true ∧ d.long ≤ c

theorem addressed_selected_iff (c : U24) (b : Bus) :
    (∃ d ∈ (b.addressed c).slaves, d.init = true ∧ d.wd = false ∧ d.long ≤ d.sr) ↔ b.Hears c := by
  have hd (d : Slave) : ((storeAddress c d).init = true ∧ (storeAddress c d).wd = false ∧
      (storeAddress c d).long ≤ (storeAddress c d).sr) ↔ activeSlave d = true ∧ d.long ≤ c := by
    cases hi : d.init <;> simp [storeAddress, activeSlave, hi]
  simp [Bus.addressed, Bus.Hears, hd]

/-- COMPARE of a whole address: the slaves stay, the address is used up, and the active devices it selects answer. -/
theorem Bus.deliver_compare (b : Bus) (c : U24) (n : Nat) :
    ∃ x, (b.addressed c).deliver n (some .compare) = { b.searched c with reply := x } ∧
      (b.Hears c → Answered x) ∧ (¬ b.Hears c → x = none) := by
  obtain ⟨hsome, hnone⟩ := compareIsAnsweredByActiveDevices (b.addressed c) n (.inr rfl)
  refine ⟨((b.addressed c).deliver n (some .compare)).reply, ?_,
    fun h => hsome ((addressed_selected_iff c b).2 h), fun h => hnone ?_⟩
  · have hact (ds : List Slave) : actAll n (some .compare) ds = ds := List.ext_getElem? fun j => by simp [actAll, slaveEffect]
    have hslaves : ((b.addressed c).deliver n (some .compare)).slaves = (b.addressed c).slaves := by
      rw [Bus.deliver_slaves _ (Search.after_ne_lost _ (by simp [Bus.addressed]))]
      exact hact _
    rw [Bus.searched, ← hslaves]
    rfl
  · intro d hd hsel
    exact h ((addressed_selected_iff c b).1 ⟨d, hd, hsel⟩)

end Sys2Proof.Machine

namespace Sys2Proof.Machine

/-! ### The search on the reference bus

One compare costs six steps and halves the window towards the least active long address (R232, R234). -/

section
variable {s : State} {low high c : U24} {a : Nat} {b : Bus} {p : Phase}

/-- Three steps send the search address `CAND`, in the search and in the selection (R219, R224). -/
theorem State.Shows.reaches_addressed {p₂ p₃ p₄ : Phase} (h : s.Shows ⟨p, low, high, c, a, b⟩)
    (hp : [p, p₂, p₃, p₄] ∈ [[Phase.cmSh, .cmSm, .cmSl, .cmCmp], [.cmXh, .cmXm, .cmXl, .cmProg]]) (hl : b.search ≠ .lost) :
    Reaches 3 s (·.Shows ⟨p₄, low, high, c, a, b.addressed c⟩) := by
  obtain ⟨hhigh, hmid, hlow, hq₂, hq₃, hq₄⟩ :
      (∀ b, View.frame ⟨p, low, high, c, a, b⟩ = some (.searchaddrh (highByte c))) ∧
      (∀ b, View.frame ⟨p₂, low, high, c, a, b⟩ = some (.searchaddrm (midByte c))) ∧
      (∀ b, View.frame ⟨p₃, low, high, c, a, b⟩ = some (.searchaddrl (lowByte c))) ∧
      p.following = some p₂ ∧ p₂.following = some p₃ ∧ p₃.following = some p₄ := by
    rcases List.mem_pair.1 hp with hp | hp <;> cases hp <;> exact ⟨fun _ => rfl, fun _ => rfl, fun _ => rfl, rfl, rfl, rfl⟩
  obtain ⟨n₁, hr⟩ := h.reaches_sent (hhigh _) hq₂
  refine hr.trans (k := 2) fun t ht => ?_
  obtain ⟨n₂, hr⟩ := ht.reaches_sent (hmid _) hq₃
  refine hr.trans (k := 1) fun t ht => ?_
  obtain ⟨n₃, hr⟩ := ht.reaches_sent (hlow _) hq₄
  exact hr.imp fun t ht => Bus.deliver_address hl c n₁ n₂ n₃ ▸ ht

/-- The step at `CM_CMP` puts on the bus what the active devices answer (R220). -/
theorem State.Shows.reaches_compared (h : s.Shows ⟨.cmCmp, low, high, c, a, b.addressed c⟩) :
    Reaches 1 s fun t => ∃ x, t.Shows ⟨.cmAwait, low, high, c, a, { b.searched c with reply := x }⟩ ∧
      (b.Hears c → Answered x) ∧ (¬ b.Hears c → x = none) := by
  obtain ⟨n, hr⟩ := h.reaches_sent (i := .compare) rfl rfl
  obtain ⟨x, hx, hcases⟩ := b.deliver_compare c n
  exact hr.imp fun t ht => ⟨x, hx ▸ ht, hcases⟩

/-- On the reference bus a read takes what the slaves have put there, or times out (R67). -/
theorem State.onReferenceBus.nextRead_of_answered (h : s.onReferenceBus b) (ha : Answered b.reply) :
    showsResponse (s.env.nextRead 18) := by
  obtain ⟨hb, -, hread, -⟩ := h
  obtain ⟨x, hx, hlen, hclass⟩ := ha
  have hnext : s.env.nextRead 18 = .bytes x := by
    simp [Env.nextRead, hb, hread, hx, listed, atMost, List.take_of_length_le hlen.le]
  rw [hnext, showsResponse_bytes_iff]
  exact hclass

theorem State.onReferenceBus.nextRead_of_silence (h : s.onReferenceBus b) (hn : b.reply = none) :
    s.env.nextRead 18 = .timeout := by
  obtain ⟨hb, -, hread, -⟩ := h
  simp [Env.nextRead, hb, hread, hn, listed]

theorem State.onReferenceBus.afterRead (h : s.onReferenceBus b) :
    { s with env := s.env.afterRead }.onReferenceBus { b with reply := none } := by
  obtain ⟨hb, hw, hread, hr, hd⟩ := h
  exact ⟨by simp [Env.afterRead, hb], hw, by simp [Env.afterRead, hread], hr, hd⟩

/-- The step at `CM_AWAIT` lowers `HIGH` when an active device has answered and raises `LOW` when none has (R221). -/
theorem State.Shows.reaches_read {x : Option (List Byte)}
    (h : s.Shows ⟨.cmAwait, low, high, c, a, { b.searched c with reply := x }⟩) (hh : b.Hears c → Answered x)
    (hn : ¬ b.Hears c → x = none) :
    (b.Hears c → Reaches 1 s (·.Shows ⟨.cmTest, low, c, c, a, b.searched c⟩)) ∧
    (¬ b.Hears c → Reaches 1 s (·.Shows ⟨.cmTest, c, high, c, a, b.searched c⟩)) := by
  obtain ⟨hresponded, hsilent, -⟩ := compareMovesWindow s h.bus.no_reset h.phase
  refine ⟨fun hb => Reaches.one (hresponded (h.bus.nextRead_of_answered (hh hb))) ?_, fun hb => ?_⟩
  · exact ⟨h.bus.afterRead, rfl, h.low, h.cand, h.cand, h.assigned⟩
  · have hread := h.bus.nextRead_of_silence (hn hb)
    refine Reaches.one (hsilent (by simp [hread, showsResponse]) (by simp [hread])) ?_
    exact ⟨h.bus.afterRead, rfl, h.cand, h.high, h.cand, h.assigned⟩

/-- `CM_TEST` takes the midpoint of a window wider than 1 and ends the search of one of width 1 (R218). -/
theorem State.Shows.reaches_tested (h : s.Shows ⟨.cmTest, low, high, c, a, b⟩) :
    (low.toNat + 1 < high.toNat → Reaches 1 s (·.Shows ⟨.cmSh, low, high, windowMid low high, a, b⟩)) ∧
    (high.toNat = low.toNat + 1 → Reaches 1 s (·.Shows ⟨.cmCheck, low, high, c, a, b⟩)) := by
  obtain ⟨-, hwide, hone⟩ := searchTestsWindow s h.bus.no_reset h.phase
  have hlow : s.low = low := h.low
  have hhigh : s.high = high := h.high
  rw [hlow, hhigh] at hwide hone
  exact ⟨fun hw => Reaches.one (hwide hw) ⟨h.bus, rfl, rfl, rfl, rfl, h.assigned⟩,
    fun hw => Reaches.one (hone hw) ⟨h.bus, rfl, rfl, rfl, h.cand, h.assigned⟩⟩

/-- Six steps take one compare of a window wider than 1: it keeps the half in which the least active long address lies. -/
theorem State.Shows.reaches_narrowed {c' : U24} (h : s.Shows ⟨.cmTest, low, high, c', a, b⟩) (hl : b.search ≠ .lost)
    (hwide : low.toNat + 1 < high.toNat) (hc : c = windowMid low high) :
    (b.Hears c → Reaches 6 s (·.Shows ⟨.cmTest, low, c, c, a, b.searched c⟩)) ∧
    (¬ b.Hears c → Reaches 6 s (·.Shows ⟨.cmTest, c, high, c, a, b.searched c⟩)) := by
  have hcompared : Reaches 5 s fun t => ∃ x, t.Shows ⟨.cmAwait, low, high, c, a, { b.searched c with reply := x }⟩ ∧
      (b.Hears c → Answered x) ∧ (¬ b.Hears c → x = none) := by
    subst hc
    refine (h.reaches_tested.1 hwide).trans (k := 4) fun t ht => ?_
    refine (ht.reaches_addressed (p₂ := .cmSm) (p₃ := .cmSl) (p₄ := .cmCmp) (by simp) hl).trans (k := 1) fun u hu => ?_
    exact hu.reaches_compared
  refine ⟨fun hb => ?_, fun hb => ?_⟩
  · exact hcompared.trans (k := 1) fun t ⟨x, ht, hh, hn⟩ => (ht.reaches_read hh hn).1 hb
  · exact hcompared.trans (k := 1) fun t ⟨x, ht, hh, hn⟩ => (ht.reaches_read hh hn).2 hb

/-- The window holds the least active long address `m`, or ends at `m` with nobody below (R234). -/
structure LeastIn (m low high : U24) (ds : List Slave) : Prop where
  low_lt  : low < m
  le_high : m ≤ high
  least   : ∀ d ∈ ds, activeSlave d = true → m ≤ d.long
  found   : m = high ∨ ∃ d ∈ ds, activeSlave d = true ∧ d.long = m

@[simp] theorem activeSlave_storeAddress (d : Slave) : activeSlave (storeAddress c d) = activeSlave d := by
  simp only [storeAddress]
  split <;> rfl

@[simp] theorem long_storeAddress (d : Slave) : (storeAddress c d).long = d.long := by
  simp only [storeAddress]
  split <;> rfl

/-- A compare's answer says on which side of the candidate the least active long address lies. -/
theorem LeastIn.narrowed {m : U24} (h : LeastIn m low high b.slaves) (hc : low < c ∧ c < high) :
    (b.Hears c → LeastIn m low c (b.searched c).slaves) ∧ (¬ b.Hears c → LeastIn m c high (b.searched c).slaves) := by
  obtain ⟨hlow, hhigh, hleast, hfound⟩ := h
  have hleast' : ∀ d ∈ (b.searched c).slaves, activeSlave d = true → m ≤ d.long := by
    simpa [Bus.searched, Bus.addressed] using hleast
  have hmem : (∃ d ∈ b.slaves, activeSlave d = true ∧ d.long = m) →
      ∃ d ∈ (b.searched c).slaves, activeSlave d = true ∧ d.long = m := by
    simp [Bus.searched, Bus.addressed]
  refine ⟨fun ⟨d, hd, hactive, hle⟩ => ?_, fun hno => ?_⟩
  · have hm : m ≤ c := BitVec.le_trans (hleast d hd hactive) hle
    refine ⟨hlow, hm, hleast', .inr (hmem (hfound.resolve_left ?_))⟩
    rintro rfl
    exact BitVec.not_le.2 hc.2 hm
  · refine ⟨BitVec.not_le.1 fun hm => ?_, hhigh, hleast', hfound.imp_right hmem⟩
    rcases hfound with rfl | ⟨d, hd, hactive, rfl⟩
    · exact BitVec.not_le.2 hc.2 hm
    · exact hno ⟨d, hd, hactive, hm⟩

/-- A slave but for its search-address register. -/
def forgetSr (d : Slave) : Slave := { d with sr := 0 }

theorem forgetSr_storeAddress (d : Slave) : forgetSr (storeAddress c d) = forgetSr d := by
  simp only [storeAddress]
  split <;> rfl

theorem forgetSr_searched (c : U24) (b : Bus) : (b.searched c).slaves.map forgetSr = b.slaves.map forgetSr := by
  simp only [Bus.searched, Bus.addressed, List.map_map]
  exact List.map_congr_left fun d _ => forgetSr_storeAddress d

/-- The search isolates the least active long address within the compares its window allows: by induction on the window's width,
which every compare halves. -/
theorem State.Shows.reaches_isolated {m : U24} (h : s.Shows ⟨.cmTest, low, high, c, a, b⟩) (hl : b.search ≠ .lost)
    (hm : LeastIn m low high b.slaves) :
    Reaches (6 * Nat.clog 2 (high.toNat - low.toNat) + 1) s fun t => ∃ c' b',
      t.Shows ⟨.cmCheck, m - 1, m, c', a, b'⟩ ∧ b'.search ≠ .lost ∧ b'.slaves.map forgetSr = b.slaves.map forgetSr := by
  induction hw : high.toNat - low.toNat using Nat.strong_induction_on generalizing s low high c b with
  | _ w ih =>
    have hlow := BitVec.lt_def.1 hm.low_lt
    have hhigh := BitVec.le_def.1 hm.le_high
    by_cases hwide : low.toNat + 1 < high.toNat
    · obtain ⟨hmid, hhalf⟩ := midpointHalvesWindow low high
      obtain ⟨hlc, hch, hlower, hupper⟩ := hhalf hwide
      obtain ⟨hhears, hsilent⟩ := h.reaches_narrowed hl hwide rfl
      obtain ⟨hhears', hsilent'⟩ := hm.narrowed ⟨hlc, hch⟩
      by_cases hb : b.Hears (windowMid low high)
      · have hclog := clog_half (w := w) (v := (windowMid low high).toNat - low.toNat) (by omega) (by omega)
        have hrest := (hhears hb).trans fun t ht => ih _ (by omega) ht (by simp [Bus.searched, Bus.addressed]) (hhears' hb) rfl
        rw [forgetSr_searched] at hrest
        exact hrest.le (by omega)
      · have hclog := clog_half (w := w) (v := high.toNat - (windowMid low high).toNat) (by omega) (by omega)
        have hrest := (hsilent hb).trans fun t ht => ih _ (by omega) ht (by simp [Bus.searched, Bus.addressed]) (hsilent' hb) rfl
        rw [forgetSr_searched] at hrest
        exact hrest.le (by omega)
    · obtain rfl : m = high := BitVec.eq_of_toNat_eq (by omega)
      obtain rfl : low = m - 1 := by bv_omega
      exact ((h.reaches_tested.2 (by omega)).imp fun _ ht => ⟨c, b, ht, hl, rfl⟩).le (by omega)

end

/-- Slaves that agree but for their search-address registers agree one by one. -/
theorem eq_of_map_forgetSr {ds es : List Slave} {j : Nat} {d e : Slave} (h : es.map forgetSr = ds.map forgetSr)
    (hd : ds[j]? = some d) (he : es[j]? = some e) : e = { d with sr := e.sr } := by
  have hj := congrArg (·[j]?) h
  simp only [List.getElem?_map, hd, he, Option.map_some, Option.some.injEq] at hj
  cases d
  cases e
  simpa [forgetSr] using hj

/-- Settles O59: by induction on the width of the window, which every compare halves while the least active address stays in
it. -/
theorem searchIsolatesLeastDevice : Obligations.SearchIsolatesLeastDevice := by
  unfold Obligations.SearchIsolatesLeastDevice
  intro s b m hbus hl hp hlow hhigh hleast hfound
  have hs : s.Shows ⟨.cmTest, s.low, s.high, s.cand, s.assigned, b⟩ := ⟨hbus, hp, rfl, rfl, rfl, rfl⟩
  obtain ⟨k, t, hk, hrun, c, b', ht, hl', hslaves⟩ := hs.reaches_isolated hl ⟨hlow, hhigh, hleast, hfound⟩
  refine ⟨k, t, b', hk, hrun, ht.bus, ht.phase, ht.high, ?_, ht.assigned, hl', ?_,
    fun j d d' hd hd' => eq_of_map_forgetSr hslaves hd hd'⟩
  · rw [ht.low]
    exact BitVec.sub_add_cancel m 1
  · simpa using congrArg List.length hslaves

end Sys2Proof.Machine

namespace Sys2Proof.Machine

/-! ### Ranks of long addresses

The `k`-th smallest of `N` distinct long addresses is the one with `k` smaller ones (R233). -/

/-- How many of the long addresses are smaller than `x`. -/
def rankIn (longs : List U24) (x : U24) : Nat := longs.countP (· < x)

section
variable {longs : List U24} {x y : U24}

theorem rankIn_lt_length (hx : x ∈ longs) : rankIn longs x < longs.length :=
  List.countP_lt_length_iff.2 ⟨x, hx, by simp⟩

theorem rankIn_lt_rankIn (hx : x ∈ longs) (h : x < y) : rankIn longs x < rankIn longs y := by
  have hsplit : longs.countP (· < x) + longs.countP (fun z => decide (z < y) && !decide (z < x)) = longs.countP (· < y) := by
    rw [List.countP_eq_countP_filter_add longs (· < y) (· < x), List.countP_filter, List.countP_filter]
    congr 1
    refine List.countP_congr fun z _ => ?_
    simp only [Bool.and_eq_true, decide_eq_true_eq]
    exact ⟨fun hz => ⟨BitVec.lt_trans hz h, hz⟩, fun hz => hz.2⟩
  have hpos : 0 < longs.countP (fun z => decide (z < y) && !decide (z < x)) :=
    List.countP_pos_iff.2 ⟨x, hx, by simp [h]⟩
  rw [rankIn, rankIn]
  omega

theorem le_of_rankIn_le (hx : x ∈ longs) (h : rankIn longs y ≤ rankIn longs x) : y ≤ x :=
  BitVec.not_lt.1 fun hlt => absurd (rankIn_lt_rankIn hx hlt) (by omega)

theorem rankIn_injOn (hx : x ∈ longs) (hy : y ∈ longs) (h : rankIn longs x = rankIn longs y) : x = y :=
  BitVec.le_antisymm (le_of_rankIn_le hy h.le) (le_of_rankIn_le hx h.ge)

/-- Distinct long addresses take every rank. -/
theorem exists_rankIn_eq (hd : longs.Nodup) {a : Nat} (ha : a < longs.length) : ∃ m ∈ longs, rankIn longs m = a := by
  have himage : longs.toFinset.image (rankIn longs) = Finset.range longs.length := by
    refine Finset.eq_of_subset_of_card_le (fun k hk => ?_) ?_
    · obtain ⟨x, hx, rfl⟩ := Finset.mem_image.1 hk
      exact Finset.mem_range.2 (rankIn_lt_length (List.mem_toFinset.1 hx))
    · rw [Finset.card_range, Finset.card_image_of_injOn fun x hx y hy h =>
        rankIn_injOn (List.mem_toFinset.1 hx) (List.mem_toFinset.1 hy) h, List.toFinset_card_of_nodup hd]
  have hmem : a ∈ longs.toFinset.image (rankIn longs) := himage ▸ Finset.mem_range.2 ha
  obtain ⟨m, hm, rfl⟩ := Finset.mem_image.1 hmem
  exact ⟨m, List.mem_toFinset.1 hm, rfl⟩

end

end Sys2Proof.Machine

namespace Sys2Proof.Machine

/-! ### The selection of the isolated device

PROGRAM_SHORT, WITHDRAW and the toggle reach exactly the devices that hold the search address (R224 to R228). -/

/-- What the selection at the search address `m` does to a device. -/
def assignSlave (m : U24) (k : ShortAddr) (d : Slave) : Slave :=
  slaveEffect 0 (.saOff k) (slaveEffect 0 (.saOn k)
    (slaveEffect 0 .withdraw (slaveEffect 0 (.programShort k) (storeAddress m d))))

/-- The bus after the selection at the search address `m`. -/
def Bus.selected (m : U24) (k : ShortAddr) (b : Bus) : Bus :=
  { slaves := b.slaves.map (assignSlave m k), seq := .idle, search := .opened, reply := none }

theorem Bus.deliver_selection (b : Bus) (m : U24) (k : ShortAddr) (n₁ n₂ n₃ n₄ : Nat) :
    ((((b.addressed m).deliver n₁ (some (.programShort k))).deliver n₂ (some .withdraw)).deliver n₃ (some (.saOn k))).deliver n₄
      (some (.saOff k)) = b.selected m k := by
  have hidle {i : Instr} (n : Nat) (ds : List Slave) (hi : plainFrame i = true)
      (hq : SearchSeq.idle.after (some i) = (.idle, .never)) (hs : Search.opened.after (some i) = .opened) :
      Bus.deliver n (some i) ⟨ds, .idle, .opened, none⟩ = ⟨ds.map (slaveEffect 0 i), .idle, .opened, none⟩ :=
    Bus.deliver_of_plain hi (by simp) hq hs
  have hprogram : (b.addressed m).deliver n₁ (some (.programShort k)) = _ :=
    Bus.deliver_of_plain (q := .idle) (r := .opened) rfl (by simp [Bus.addressed]) rfl rfl
  rw [hprogram, hidle _ _ rfl rfl rfl, hidle _ _ rfl rfl rfl, hidle _ _ rfl rfl rfl]
  simp only [Bus.selected, Bus.addressed, List.map_map]
  rfl

section
variable {s : State} {low high c : U24} {a : Nat} {b : Bus}

/-- The last frame of a pass counts the device (R228). -/
theorem State.Shows.reaches_counted (h : s.Shows ⟨.cmLoff, low, high, c, a, b⟩) :
    ∃ n, Reaches 1 s (·.Shows ⟨.cmPass, low, high, c, a + 1, b.deliver n (some (.saOff (shortOf a)))⟩) := by
  obtain ⟨-, -, -, -, -, hframe⟩ := shortAddressFramesComplete s (shortOf a) h.bus.nextWrite_eq
  refine ⟨s.env.draws, Reaches.one ((h.runs rfl).trans (hframe h.phase)) ?_⟩
  exact ⟨h.bus.sent (i := .saOff (shortOf a)) rfl, rfl, h.low, h.high, h.cand, congrArg (· + 1) h.assigned⟩

/-- From `CM_CHECK` a pass selects the device at `LOW + 1` and counts it (R223 to R228). -/
theorem State.Shows.reaches_selected (h : s.Shows ⟨.cmCheck, low, high, c, a, b⟩) (hl : b.search ≠ .lost) (hceil : high ≠ ceil) :
    Reaches 8 s (·.Shows ⟨.cmPass, low, high, low + 1, a + 1, b.selected (low + 1) (shortOf a)⟩) := by
  obtain ⟨-, hcheck⟩ := passEndSelectsDevice s h.bus.no_reset h.phase
  have hchecked : Reaches 1 s (·.Shows ⟨.cmXh, low, high, low + 1, a, b⟩) :=
    Reaches.one (hcheck (h.high ▸ hceil)) ⟨h.bus, rfl, h.low, h.high, congrArg (· + 1) h.low, h.assigned⟩
  refine hchecked.trans (k := 7) fun t ht => ?_
  refine (ht.reaches_addressed (p₂ := .cmXm) (p₃ := .cmXl) (p₄ := .cmProg) (by simp) hl).trans (k := 4) fun t ht => ?_
  obtain ⟨n₁, hr⟩ := ht.reaches_sent (i := .programShort (shortOf a)) rfl rfl
  refine hr.trans (k := 3) fun t ht => ?_
  obtain ⟨n₂, hr⟩ := ht.reaches_sent (i := .withdraw) rfl rfl
  refine hr.trans (k := 2) fun t ht => ?_
  obtain ⟨n₃, hr⟩ := ht.reaches_sent (i := .saOn (shortOf a)) rfl rfl
  refine hr.trans (k := 1) fun t ht => ?_
  obtain ⟨n₄, hr⟩ := ht.reaches_counted
  exact hr.imp fun t ht => Bus.deliver_selection b (low + 1) (shortOf a) n₁ n₂ n₃ n₄ ▸ ht

/-- A pass starts from the ceiling (R217). -/
theorem State.Shows.reaches_passStarted (h : s.Shows ⟨.cmPass, low, high, c, a, b⟩) (ha : a ≠ 64) :
    Reaches 1 s (·.Shows ⟨.cmTest, low, ceil, c, a, b⟩) := by
  obtain ⟨-, hpass⟩ := passStartsFromCeiling s h.bus.no_reset h.phase
  exact Reaches.one (hpass (h.assigned ▸ ha)) ⟨h.bus, rfl, h.low, rfl, h.cand, h.assigned⟩

end

/-! ### The passes

After `a` passes the devices with the `a` smallest long addresses are programmed in that order and withdrawn, and the others are
still active above `LOW` (R211, R233). -/

/-- How far the device `e`, which was `d` at COMMISSION's start, has come after `a` passes. -/
structure Placed (longs : List U24) (a : Nat) (d e : Slave) : Prop where
  initialised : e.init = decide (d.short = none)
  bound       : d.short ≠ none → e.short = d.short
  long        : d.short = none → e.long = drawnLong d ∧ e.long ∈ longs
  programmed  : d.short = none → rankIn longs e.long < a → e.wd = true ∧ e.short = some (shortOf (rankIn longs e.long))
  waiting     : d.short = none → a ≤ rankIn longs e.long → e.wd = false

section
variable {longs : List U24} {a : Nat} {d e : Slave} {ds : List Slave}

theorem placed_forgetSr_iff : Placed longs a d (forgetSr e) ↔ Placed longs a d e := by
  constructor <;> exact fun ⟨hi, hb, hl, hp, hw⟩ => ⟨hi, hb, hl, hp, hw⟩

/-- The search moves no device on: it writes search-address registers only. -/
theorem forall₂_placed_of_forgetSr {es fs : List Slave} (h : List.Forall₂ (Placed longs a) ds es)
    (hf : fs.map forgetSr = es.map forgetSr) : List.Forall₂ (Placed longs a) ds fs := by
  have hiff (gs : List Slave) : List.Forall₂ (Placed longs a) ds (gs.map forgetSr) ↔ List.Forall₂ (Placed longs a) ds gs := by
    simp only [List.forall₂_map_right_iff, placed_forgetSr_iff]
  rwa [← hiff, hf, hiff]

/-- An active device is one that is still to be placed. -/
theorem Placed.active_iff (h : Placed longs a d e) : activeSlave e = true ↔ d.short = none ∧ a ≤ rankIn longs e.long := by
  obtain ⟨hinit, -, -, hprog, hwait⟩ := h
  by_cases hd : d.short = none
  · rcases lt_or_ge (rankIn longs e.long) a with hlt | hge
    · simp [activeSlave, hinit, hd, (hprog hd hlt).1, hlt]
    · simp [activeSlave, hinit, hd, hwait hd hge, hge]
  · simp [activeSlave, hinit, hd]

/-- The toggle's two frames write the lamp only (R227, R228). -/
theorem slaveEffect_toggle (k : ShortAddr) (f : Slave) :
    slaveEffect 0 (.saOff k) (slaveEffect 0 (.saOn k) f) = { f with lamp := if f.short = some k then false else f.lamp } := by
  by_cases h : f.short = some k <;> simp [slaveEffect, h]

/-- The selection leaves a device alone unless it is in addressing mode at the search address. -/
theorem assignSlave_fields (m : U24) (k : ShortAddr) (e : Slave) :
    (assignSlave m k e).init = e.init ∧ (assignSlave m k e).long = e.long ∧
    (e.init = true ∧ e.long = m → (assignSlave m k e).wd = true ∧ (assignSlave m k e).short = some k) ∧
    (¬ (e.init = true ∧ e.long = m) → (assignSlave m k e).wd = e.wd ∧ (assignSlave m k e).short = e.short) := by
  rw [assignSlave, slaveEffect_toggle]
  cases hi : e.init with
  | false => simp [storeAddress, slaveEffect, hi]
  | true => by_cases hl : e.long = m <;> simp [storeAddress, slaveEffect, hi, hl]

/-- The selection at the long address of rank `a` places the device that has it. -/
theorem Placed.assign {m : U24} (h : Placed longs a d e) (hm : m ∈ longs) (hrank : rankIn longs m = a) :
    Placed longs (a + 1) d (assignSlave m (shortOf a) e) := by
  obtain ⟨hinit, hlong, hsel, hother⟩ := assignSlave_fields m (shortOf a) e
  by_cases hd : d.short = none
  · have hi : e.init = true := by simp [h.initialised, hd]
    have hat : e.long = m ↔ rankIn longs e.long = a :=
      ⟨fun he => he ▸ hrank, fun he => rankIn_injOn (h.long hd).2 hm (he.trans hrank.symm)⟩
    refine ⟨hinit.trans h.initialised, fun hn => absurd hd hn, fun _ => hlong ▸ h.long hd, fun _ hlt => ?_, fun _ hle => ?_⟩
    · rw [hlong] at hlt ⊢
      by_cases he : e.long = m
      · rw [hat.1 he]
        exact hsel ⟨hi, he⟩
      · obtain ⟨hwd, hshort⟩ := hother fun hn => he hn.2
        rw [hwd, hshort]
        exact h.programmed hd (lt_of_le_of_ne (Nat.le_of_lt_succ hlt) (mt hat.2 he))
    · rw [hlong] at hle
      obtain ⟨hwd, -⟩ := hother fun hn => absurd (hat.1 hn.2) (by omega)
      exact hwd.trans (h.waiting hd (by omega))
  · obtain ⟨-, hshort⟩ := hother (by simp [h.initialised, hd])
    exact ⟨hinit.trans h.initialised, fun hn => hshort.trans (h.bound hn), fun hn => absurd hn hd, fun hn => absurd hn hd,
      fun hn => absurd hn hd⟩

/-- Where COMMISSION stands after `a` passes on the bus `b`. -/
structure Progress (longs : List U24) (ds : List Slave) (a : Nat) (low : U24) (b : Bus) : Prop where
  not_lost   : b.search ≠ .lost
  placed     : List.Forall₂ (Placed longs a) ds b.slaves
  below_ceil : low < ceil
  below      : ∀ x ∈ longs, a ≤ rankIn longs x → low < x

/-- COMMISSION stands at this phase of the reference bus after `a` passes. -/
def PassedAt (longs : List U24) (ds : List Slave) (p : Phase) (a : Nat) (t : State) : Prop :=
  ∃ low high c b, t.Shows ⟨p, low, high, c, a, b⟩ ∧ Progress longs ds a low b

/-- The long addresses the unbound devices draw. -/
def unboundLongs (ds : List Slave) : List U24 := (ds.filter fun d => d.short.isNone).map drawnLong

theorem mem_unboundLongs {x : U24} : x ∈ unboundLongs ds ↔ ∃ d ∈ ds, d.short = none ∧ drawnLong d = x := by
  simp [unboundLongs, and_assoc]

/-- The long addresses of the unbound devices: distinct, at most 64, in 1..0xFFFFFE (R233). -/
structure NewDevices (longs : List U24) (ds : List Slave) : Prop where
  longs_eq  : longs = unboundLongs ds
  nodup     : longs.Nodup
  length_le : longs.length ≤ 64
  pos       : ∀ x ∈ longs, 0 < x
  ne_ceil   : ∀ x ∈ longs, x ≠ ceil

theorem exists_left_of_forall₂ {R : Slave → Slave → Prop} {es : List Slave} (h : List.Forall₂ R ds es) (he : e ∈ es) :
    ∃ d ∈ ds, R d e := by
  induction h with
  | nil => cases he
  | cons hr _ ih =>
    rcases List.mem_cons.1 he with rfl | he
    · exact ⟨_, List.mem_cons_self, hr⟩
    · obtain ⟨d, hd, hr⟩ := ih he
      exact ⟨d, List.mem_cons_of_mem _ hd, hr⟩

theorem exists_right_of_forall₂ {R : Slave → Slave → Prop} {es : List Slave} (h : List.Forall₂ R ds es) (hd : d ∈ ds) :
    ∃ e ∈ es, R d e := exists_left_of_forall₂ h.flip hd

/-- An active device of the bus has a long address of rank `a` at least. -/
theorem Progress.rank_of_active {low : U24} {b : Bus} (h : Progress longs ds a low b) (he : e ∈ b.slaves)
    (hactive : activeSlave e = true) : e.long ∈ longs ∧ a ≤ rankIn longs e.long := by
  obtain ⟨d, -, hplaced⟩ := exists_left_of_forall₂ h.placed he
  obtain ⟨hd, hrank⟩ := hplaced.active_iff.1 hactive
  exact ⟨(hplaced.long hd).2, hrank⟩

/-- While devices wait, the least active long address is the one of rank `a`. -/
theorem Progress.leastIn {low m : U24} {b : Bus} (h : Progress longs ds a low b) (hnew : NewDevices longs ds) (hm : m ∈ longs)
    (hrank : rankIn longs m = a) : LeastIn m low ceil b.slaves := by
  refine ⟨h.below m hm hrank.ge, ?_, fun e he hactive => ?_, .inr ?_⟩
  · rw [BitVec.le_def]
    exact Nat.le_of_lt_succ m.isLt
  · obtain ⟨hmem, hle⟩ := h.rank_of_active he hactive
    exact le_of_rankIn_le hmem (hrank.le.trans hle)
  · obtain ⟨d, hds, hnone, rfl⟩ := mem_unboundLongs.1 (hnew.longs_eq ▸ hm)
    obtain ⟨e, he, hplaced⟩ := exists_right_of_forall₂ h.placed hds
    obtain ⟨hlong, -⟩ := hplaced.long hnone
    exact ⟨e, he, hplaced.active_iff.2 ⟨hnone, by rw [hlong, hrank]⟩, hlong⟩

/-- Once every device is placed none is active, and the window ends at the sentinel. -/
theorem Progress.leastIn_ceil {low : U24} {b : Bus} (h : Progress longs ds longs.length low b) :
    LeastIn ceil low ceil b.slaves := by
  refine ⟨h.below_ceil, BitVec.le_refl _, fun e he hactive => ?_, .inl rfl⟩
  obtain ⟨hmem, hle⟩ := h.rank_of_active he hactive
  exact absurd (rankIn_lt_length hmem) hle.not_gt

/-- A pass places the waiting device with the least long address (R233). -/
theorem PassedAt.reaches_next {s : State} (h : PassedAt longs ds .cmPass a s) (hnew : NewDevices longs ds)
    (ha : a < longs.length) : Reaches 154 s (PassedAt longs ds .cmPass (a + 1)) := by
  obtain ⟨low, high, c, b, hs, hprog⟩ := h
  obtain ⟨m, hm, hrank⟩ := exists_rankIn_eq hnew.nodup ha
  have hclog := clog_width_le low ceil
  have hstart := hs.reaches_passStarted (ha.trans_le hnew.length_le).ne
  have hfound := hstart.trans fun t ht => ht.reaches_isolated hprog.not_lost (hprog.leastIn hnew hm hrank)
  refine (hfound.trans (k := 8) fun t ⟨c', b', ht, hl, hslaves⟩ => ?_).le (by omega)
  refine (ht.reaches_selected hl (hnew.ne_ceil m hm)).imp fun u hu => ⟨_, _, _, _, hu, ?_⟩
  have hplaced := forall₂_placed_of_forgetSr hprog.placed hslaves
  have hm₁ : m - 1 + 1 = m := BitVec.sub_add_cancel m 1
  have hpos : 0 < m.toNat := Nat.zero_lt_of_lt (BitVec.lt_def.1 (hprog.below m hm hrank.ge))
  have hlt (x : U24) (hx : m ≤ x) : m - 1 < x := by bv_omega
  refine ⟨by simp [Bus.selected], ?_, hlt ceil ?_, fun x hx hle => hlt x ?_⟩
  · rw [hm₁]
    exact List.forall₂_map_right_iff.2 (hplaced.imp fun _ _ hp => hp.assign hm hrank)
  · exact (hprog.leastIn hnew hm hrank).le_high
  · exact le_of_rankIn_le hx (hrank.le.trans (Nat.le_of_succ_le hle))

/-- With every device placed the next pass finds the sentinel, or 64 devices end the run (R217, R223). -/
theorem PassedAt.reaches_terminate {s : State} (h : PassedAt longs ds .cmPass longs.length s) :
    Reaches 147 s (PassedAt longs ds .cmTerm longs.length) := by
  obtain ⟨low, high, c, b, hs, hprog⟩ := h
  have hclog := clog_width_le low ceil
  by_cases hfull : longs.length = 64
  · obtain ⟨hpass, -⟩ := passStartsFromCeiling s hs.bus.no_reset hs.phase
    refine (Reaches.one (hpass (hs.assigned.trans hfull)) ⟨low, high, c, b, ?_, hprog⟩).le (by omega)
    exact ⟨hs.bus, rfl, hs.low, hs.high, hs.cand, hs.assigned⟩
  · have hfound := (hs.reaches_passStarted hfull).trans fun t ht => ht.reaches_isolated hprog.not_lost hprog.leastIn_ceil
    refine (hfound.trans (k := 1) fun t ⟨c', b', ht, hl, hslaves⟩ => ?_).le (by omega)
    obtain ⟨hcheck, -⟩ := passEndSelectsDevice t ht.bus.no_reset ht.phase
    refine Reaches.one (hcheck ht.high) ⟨_, _, _, _, ⟨ht.bus, rfl, ht.low, ht.high, ht.cand, ht.assigned⟩, hl, ?_, by decide, ?_⟩
    · exact forall₂_placed_of_forgetSr hprog.placed hslaves
    · exact fun x hx hle => absurd (rankIn_lt_length hx) hle.not_gt

/-- The passes place every device, one each, and end the search. -/
theorem PassedAt.reaches_end {s : State} (h : PassedAt longs ds .cmPass a s) (hnew : NewDevices longs ds)
    (ha : a ≤ longs.length) :
    Reaches (154 * (longs.length - a) + 147) s (PassedAt longs ds .cmTerm longs.length) := by
  induction hn : longs.length - a generalizing a s with
  | zero =>
    obtain rfl : a = longs.length := by omega
    exact h.reaches_terminate
  | succ n ih =>
    exact ((h.reaches_next hnew (by omega)).trans fun t ht => ih ht (by omega) (by omega)).le (by omega)

end

end Sys2Proof.Machine

namespace Sys2Proof.Machine

/-! ### The opening frames

RESET, INITIALISE and RANDOMISE, each sent twice, leave exactly the unbound devices in addressing mode with the long addresses
they have drawn (R214 to R216), also after an interruption (R289). -/

theorem forall₂_mapIdx {R R' : Slave → Slave → Prop} {ds es : List Slave} {f : Nat → Slave → Slave}
    (hR : ∀ j d e, R d e → R' d (f j e)) (h : List.Forall₂ R ds es) : List.Forall₂ R' ds (es.mapIdx f) := by
  induction h generalizing f with
  | nil => exact .nil
  | cons hr _ ih =>
    rw [List.mapIdx_cons]
    exact .cons (hR 0 _ _ hr) (ih fun j => hR (j + 1))

section
variable {R R' : Slave → Slave → Prop} {ds : List Slave} {i : Instr}

/-- What a frame makes of each device, as long as it frees no search address and the search is not lost. -/
theorem Bus.deliver_forall₂ {b : Bus} {n : Nat} (hl : b.search.after (some i) ≠ .lost)
    (hq : (b.seq.after (some i)).2 = .never) (hR : ∀ x d e, R d e → R' d (slaveEffect x i e))
    (h : List.Forall₂ R ds b.slaves) : List.Forall₂ R' ds (b.deliver n (some i)).slaves := by
  rw [Bus.deliver_slaves _ hl, hq]
  exact forall₂_mapIdx (fun j d e => hR (Config.freeLong n j) d e) h

/-- A frame of COMMISSION that frees no search address acts on each device and moves on. -/
theorem State.Shows.reaches_acted {s : State} {v : View} {q : Phase} (h : s.Shows v) (hi : v.frame = some i)
    (hq : v.phase.following = some q) (hl : v.bus.search.after (some i) ≠ .lost) (hdraw : (v.bus.seq.after (some i)).2 = .never)
    (hR : ∀ x d e, R d e → R' d (slaveEffect x i e)) (hds : List.Forall₂ R ds v.bus.slaves) :
    Reaches 1 s fun t => ∃ b, t.Shows { v with phase := q, bus := b } ∧ b.search ≠ .lost ∧ List.Forall₂ R' ds b.slaves := by
  obtain ⟨n, hr⟩ := h.reaches_sent hi hq
  exact hr.imp fun t ht => ⟨_, ht, hl, Bus.deliver_forall₂ hl hdraw hR hds⟩

end

/-- The device `d` before the first INITIALISE, in a search `q` that an interruption may have lost (R289). -/
structure Awaiting (longs : List U24) (q : Search) (d e : Slave) : Prop where
  short : e.short = d.short
  rand  : e.rand = d.rand
  bound : d.short ≠ none → e.init = false
  draws : d.short = none → 2 ≤ d.rand.length ∧ drawnLong d ∈ longs
  cut   : q = .lost → d.short = none

/-- The device `d` in addressing mode, if unbound, after `k` of its draws (R71). -/
structure Drawing (longs : List U24) (k : Nat) (d e : Slave) : Prop where
  initialised : e.init = decide (d.short = none)
  short       : e.short = d.short
  active      : d.short = none → e.wd = false
  rand        : d.short = none → e.rand = d.rand.drop k
  long        : d.short = none → k = 2 → e.long = drawnLong d
  draws       : d.short = none → 2 ≤ d.rand.length ∧ drawnLong d ∈ longs

section
variable {longs : List U24} {ds : List Slave} {q : Search} {d e : Slave} {k : Nat}

theorem Awaiting.initialise (h : Awaiting longs q d e) (x : U24) : Drawing longs 0 d (slaveEffect x .initialise e) := by
  obtain ⟨hshort, hrand, hbound, hdraws, -⟩ := h
  by_cases hd : d.short = none
  · constructor <;> simp [slaveEffect, hshort, hd, hrand, hdraws hd]
  · constructor <;> simp [slaveEffect, hshort, hd, hbound hd]

theorem Drawing.initialise (h : Drawing longs 0 d e) (x : U24) : Drawing longs 0 d (slaveEffect x .initialise e) := by
  obtain ⟨hinit, hshort, -, hrand, -, hdraws⟩ := h
  by_cases hd : d.short = none
  · constructor <;> simp [slaveEffect, hshort, hd, hrand hd, hdraws hd]
  · constructor <;> simp [slaveEffect, hshort, hd, hinit]

theorem randomiseSlave_of_cons {v : U24} {t : List U24} (h : e.rand = v :: t) (x : U24) :
    randomiseSlave x e = { e with long := v, rand := t } := by simp [randomiseSlave, h]

/-- A device in addressing mode takes the next long address fixed for it; the second is the one it keeps (R71, R216). -/
theorem Drawing.randomise (h : Drawing longs k d e) (hk : k < 2) (x : U24) :
    Drawing longs (k + 1) d (slaveEffect x .randomise e) := by
  obtain ⟨hinit, hshort, hactive, hrand, -, hdraws⟩ := h
  by_cases hd : d.short = none
  · obtain ⟨hlen, hmem⟩ := hdraws hd
    have hcons : e.rand = d.rand[k] :: d.rand.drop (k + 1) := (hrand hd).trans (List.drop_eq_getElem_cons (by omega))
    have heffect : slaveEffect x .randomise e = { e with long := d.rand[k], rand := d.rand.drop (k + 1) } := by
      rw [← randomiseSlave_of_cons hcons x]
      exact if_pos (by simp [hinit, hd])
    rw [heffect]
    refine ⟨hinit, hshort, hactive, fun _ => rfl, fun _ h2 => ?_, hdraws⟩
    obtain rfl : k = 1 := by omega
    rw [drawnLong, List.drop_eq_getElem_cons (show 1 < d.rand.length by omega)]
    rfl
  · have heffect : slaveEffect x .randomise e = e := if_neg (by simp [hinit, hd])
    rw [heffect]
    exact ⟨hinit, hshort, fun hn => absurd hn hd, fun hn => absurd hn hd, fun hn => absurd hn hd, hdraws⟩

/-- After the draws no device has been placed. -/
theorem Drawing.placed (h : Drawing longs 2 d e) : Placed longs 0 d e := by
  obtain ⟨hinit, hshort, hactive, -, hlong, hdraws⟩ := h
  refine ⟨hinit, fun _ => hshort, fun hd => ?_, fun _ hlt => absurd hlt (Nat.not_lt_zero _), fun hd _ => hactive hd⟩
  rw [hlong hd rfl]
  exact ⟨rfl, (hdraws hd).2⟩

/-- RESET leaves the devices waiting; of a lost search they are drawn anew, and all of them are unbound. -/
theorem Bus.deliver_bcReset {b : Bus} (n : Nat) (h : List.Forall₂ (Awaiting longs b.search) ds b.slaves) :
    List.Forall₂ (Awaiting longs (b.deliver n (some .bcReset)).search) ds (b.deliver n (some .bcReset)).slaves := by
  have hsearch : b.search.after (some .bcReset) = b.search := Search.after_of_not_searches rfl nofun
  rw [Bus.deliver_search, hsearch]
  by_cases hl : b.search = .lost
  · rw [Bus.deliver_slaves_lost _ (hsearch.trans hl)]
    refine forall₂_mapIdx (fun j d e he => ?_) (forall₂_mapIdx (f := fun _ e => e) (fun _ _ _ he => he) h)
    exact ⟨he.short, he.rand, fun hd => absurd (he.cut hl) hd, he.draws, he.cut⟩
  · exact Bus.deliver_forall₂ (by rwa [hsearch]) rfl (fun _ _ _ he => he) h

/-- The frames before the first pass leave the unbound devices, and no others, active with the long addresses they have drawn. -/
theorem State.Shows.reaches_passes {s : State} {high c : U24} {b : Bus} (h : s.Shows ⟨.cmReset1, 0, high, c, 0, b⟩)
    (hnew : NewDevices longs ds) (hds : List.Forall₂ (Awaiting longs b.search) ds b.slaves) :
    Reaches 6 s (PassedAt longs ds .cmPass 0) := by
  obtain ⟨n₁, hr⟩ := h.reaches_sent (i := .bcReset) rfl rfl
  refine hr.trans (k := 5) fun t h => ?_
  obtain ⟨n₂, hr⟩ := h.reaches_sent (i := .bcReset) rfl rfl
  refine hr.trans (k := 4) fun t h => ?_
  refine Reaches.trans (k := 3) (h.reaches_acted (i := .initialise) (R' := Drawing longs 0) rfl rfl (by simp) rfl
    (fun x _ _ he => he.initialise x) (Bus.deliver_bcReset n₂ (Bus.deliver_bcReset n₁ hds))) fun t ⟨b, h, _, hds⟩ => ?_
  refine Reaches.trans (k := 2) (h.reaches_acted (i := .initialise) (R' := Drawing longs 0) rfl rfl (by simp) rfl
    (fun x _ _ he => he.initialise x) hds) fun t ⟨b, h, hl, hds⟩ => ?_
  refine Reaches.trans (k := 1) (h.reaches_acted (i := .randomise) (R' := Drawing longs 1) rfl rfl
    (Search.after_ne_lost _ hl) rfl (fun x _ _ he => he.randomise (by decide) x) hds) fun t ⟨b, h, hl, hds⟩ => ?_
  refine Reaches.imp (h.reaches_acted (i := .randomise) (R' := Drawing longs 2) rfl rfl
    (Search.after_ne_lost _ hl) rfl (fun x _ _ he => he.randomise (by decide) x) hds) fun t ⟨b, h, hl, hds⟩ => ?_
  exact ⟨0, high, c, b, h, hl, hds.imp fun _ _ he => he.placed, by decide, fun x hx _ => hnew.pos x hx⟩

end

/-! ### The end of COMMISSION on the reference bus -/

/-- What COMMISSION has made of the device `d` in the end (R211, R233). -/
structure Commissioned (longs : List U24) (d e : Slave) : Prop where
  unbound : d.short = none → e.long = drawnLong d ∧ drawnLong d ∈ longs ∧ e.wd = true ∧
    e.short = some (shortOf (rankIn longs (drawnLong d)))
  bound   : d.short ≠ none → e.short = d.short

section
variable {longs : List U24} {ds : List Slave} {d e : Slave}

theorem Placed.terminate (h : Placed longs longs.length d e) (x : U24) : Commissioned longs d (slaveEffect x .terminate e) := by
  refine ⟨fun hd => ?_, h.bound⟩
  obtain ⟨hlong, hmem⟩ := h.long hd
  obtain ⟨hwd, hshort⟩ := h.programmed hd (rankIn_lt_length hmem)
  exact ⟨hlong, hlong ▸ hmem, hwd, hlong ▸ hshort⟩

/-- TERMINATE and ON end the operation with the count of the devices, and undo nothing (R229, R230). -/
theorem PassedAt.reaches_returned {s : State} (h : PassedAt longs ds .cmTerm longs.length s) :
    Reaches 2 s fun t => t.phase = .idle ∧ t.status = .ok ∧ t.result = some (.count longs.length) ∧
      ∃ b, t.env.bus = some b ∧ List.Forall₂ (Commissioned longs) ds b.slaves := by
  obtain ⟨low, high, c, b, h, hprog⟩ := h
  refine Reaches.trans (k := 1) (h.reaches_acted (i := .terminate) (R' := Commissioned longs) rfl rfl
    (Search.after_ne_lost _ hprog.not_lost) rfl (fun x _ _ he => he.terminate x) hprog.placed) fun t ⟨b', ht, hl, hds⟩ => ?_
  obtain ⟨-, -, -, -, hframe⟩ := broadcastFramesComplete t ht.bus.nextWrite_eq
  refine Reaches.one ((ht.runs rfl).trans (hframe ht.phase)) ⟨rfl, rfl, congrArg (some ∘ Result.count) ht.assigned, ?_⟩
  obtain ⟨hbus, -⟩ := ht.bus.sent (i := .bcOn) rfl
  exact ⟨_, hbus, Bus.deliver_forall₂ (Search.after_ne_lost _ hl) rfl (fun _ _ _ he => ⟨he.unbound, he.bound⟩) hds⟩

end

/-! ### The assignment, device by device -/

theorem getElem?_of_forall₂ {R : Slave → Slave → Prop} {ds es : List Slave} {j : Nat} {d e : Slave} (h : List.Forall₂ R ds es)
    (hd : ds[j]? = some d) (he : es[j]? = some e) : R d e := by
  obtain ⟨hj, rfl⟩ := List.getElem?_eq_some_iff.1 hd
  obtain ⟨hj', rfl⟩ := List.getElem?_eq_some_iff.1 he
  exact h.get hj hj'

theorem toNat_shortOf {r : Nat} (h : r < 64) : (shortOf r).toNat = r := by
  rw [shortOf, BitVec.toNat_ofNat]
  exact Nat.mod_eq_of_lt h

/-- Two unbound devices have drawn different long addresses. -/
theorem drawnLong_ne {ds : List Slave} (hnodup : (unboundLongs ds).Nodup) {i j : Nat}
    {d e : Slave} (hij : i ≠ j) (hi : ds[i]? = some d) (hj : ds[j]? = some e) (hd : d.short = none) (he : e.short = none) :
    drawnLong d ≠ drawnLong e := by
  rw [unboundLongs, List.Nodup, List.pairwise_map, List.pairwise_filter, List.pairwise_iff_getElem] at hnodup
  obtain ⟨hilt, rfl⟩ := List.getElem?_eq_some_iff.1 hi
  obtain ⟨hjlt, rfl⟩ := List.getElem?_eq_some_iff.1 hj
  rcases lt_or_gt_of_ne hij with hlt | hlt
  · exact hnodup i j hilt hjlt hlt (by simp [hd]) (by simp [he])
  · exact (hnodup j i hjlt hilt hlt (by simp [he]) (by simp [hd])).symm

section
variable {longs : List U24} {ds es : List Slave} {d d' e' : Slave} {i j : Nat}

/-- A device COMMISSION has numbered shares its short address with no other (R211). -/
theorem Commissioned.short_ne (h : List.Forall₂ (Commissioned longs) ds es) (hnew : NewDevices longs ds)
    (hfree : ∀ d ∈ ds, ∀ k, d.short = some k → longs.length ≤ k.toNat) (hij : i ≠ j) (hi : ds[i]? = some d)
    (hd : d.short = none) (hi' : es[i]? = some d') (hj' : es[j]? = some e') : d'.short ≠ e'.short := by
  obtain ⟨e, hj⟩ : ∃ e, ds[j]? = some e := by
    obtain ⟨hlt, -⟩ := List.getElem?_eq_some_iff.1 hj'
    exact ⟨_, List.getElem?_eq_getElem (h.length_eq ▸ hlt)⟩
  obtain ⟨-, hmem, -, hshort⟩ := (getElem?_of_forall₂ h hi hi').unbound hd
  have hrank := rankIn_lt_length hmem
  have hle := hnew.length_le
  have hcommissioned := getElem?_of_forall₂ h hj hj'
  rw [hshort]
  cases he : e.short with
  | none =>
    obtain ⟨-, hmem', -, hshort'⟩ := hcommissioned.unbound he
    have hrank' := rankIn_lt_length hmem'
    rw [hshort']
    intro heq
    have hsame := congrArg BitVec.toNat (Option.some.inj heq)
    rw [toNat_shortOf (by omega), toNat_shortOf (by omega)] at hsame
    exact drawnLong_ne (hnew.longs_eq ▸ hnew.nodup) hij hi hj hd he (rankIn_injOn hmem hmem' hsame)
  | some k =>
    rw [hcommissioned.bound (by simp [he]), he]
    intro heq
    have hk := hfree e (List.mem_of_getElem? hj) k he
    rw [← Option.some.inj heq, toNat_shortOf (by omega)] at hk
    omega

end

/-- Settles O60: the opening frames leave the unbound devices active, each pass places the one of the next rank, and the end
undoes nothing. -/
theorem commissionAssignsInAscendingOrder : Obligations.CommissionAssignsInAscendingOrder := by
  unfold Obligations.CommissionAssignsInAscendingOrder
  rintro s b new hbus hlost hp hlow hassigned rfl hlen hbound hdraws hnodup
  have hdrawn (d : Slave) (hd : d ∈ b.slaves) (hn : d.short = none) :=
    hdraws d (List.mem_filter.2 ⟨hd, Option.isNone_iff_eq_none.2 hn⟩)
  have hnew : NewDevices (unboundLongs b.slaves) b.slaves := by
    refine ⟨rfl, hnodup, by simpa [unboundLongs] using hlen, fun x hx => ?_, fun x hx => ?_⟩
    all_goals
      obtain ⟨d, hd, hn, rfl⟩ := mem_unboundLongs.1 hx
      obtain ⟨-, hmin, hmax⟩ := hdrawn d hd hn
    · exact BitVec.lt_def.2 hmin
    · rintro heq
      rw [heq] at hmax
      exact absurd hmax (by decide)
  have hstart : List.Forall₂ (Awaiting (unboundLongs b.slaves) b.search) b.slaves b.slaves := by
    refine List.forall₂_same.2 fun d hd => ⟨rfl, rfl, fun hn => (hbound d hd hn).1, fun hn => ?_, fun hl => hlost hl d hd⟩
    exact ⟨(hdrawn d hd hn).1, mem_unboundLongs.2 ⟨d, hd, hn, rfl⟩⟩
  have hs : s.Shows ⟨.cmReset1, 0, s.high, s.cand, 0, b⟩ := ⟨hbus, hp, hlow, rfl, rfl, hassigned⟩
  obtain ⟨k, t, -, hrun, hidle, hok, hresult, b', hb', hds⟩ :=
    ((hs.reaches_passes hnew hstart).trans fun t ht => ht.reaches_end hnew (Nat.zero_le _)).trans fun t ht => ht.reaches_returned
  refine ⟨k, t, b', hrun, hidle, hok, by simpa [unboundLongs] using hresult, hb', hds.length_eq.symm, fun j d d' hd hd' => ?_, ?_⟩
  · obtain ⟨hunbound, hkeeps⟩ := getElem?_of_forall₂ hds hd hd'
    refine ⟨fun hn => ?_, hkeeps⟩
    obtain ⟨hlong, -, hwd, hshort⟩ := hunbound hn
    rw [rankIn, unboundLongs, List.countP_map] at hshort
    exact ⟨hlong, hwd, hshort⟩
  · intro i j d d' e' hij hi hd hi' hj'
    refine Commissioned.short_ne hds hnew (fun e he k hk => ?_) hij hi hd hi' hj'
    rw [unboundLongs, List.length_map]
    exact (hbound e he (by simp [hk])).2 k hk

end Sys2Proof.Machine

namespace Sys2Proof.Machine

/-! ### Error entry

An error of a sequence is taken by `State.raise` and by nothing else, after the step's one transport call or with none made (R257,
R259), so it finds every register as the step found it. -/

/-- The state a step of a sequence takes an error in: after a write, after a read, or with no call made. -/
inductive State.Called (s : State) : State → Prop
  | noCall : Called s s
  | write (b : List Byte) : Called s (s.txWrite b)
  | read (m : Nat) : Called s (s.txRead m)

/-- A step of a sequence that adds an error to the observation is an error entry of the operation under way. -/
theorem SequenceStep.eq_raise_of_failed {s t : State} {e : ErrCode} {rest : List Event} (h : SequenceStep s t)
    (htrace : t.trace = .failed e :: rest) (hgrows : s.trace.length < t.trace.length) :
    ∃ op u, s.phase.op = some op ∧ s.Called u ∧ t = u.raise op e := by
  cases h with
  | sent a c => rcases advance_trace (s.txWrite (pack (fwd a c))).settle with hh | ⟨r, hh⟩ <;> simp [hh] at htrace
  | unsent op a c hop =>
    cases htrace
    exact ⟨op, _, hop, .write _, rfl⟩
  | scanAwait => simp [State.scanAwait] at htrace
  | scanDone => simp [State.scanDone] at hgrows
  | passStart => rcases passStart_cases s with ⟨-, hh⟩ | ⟨-, hh⟩ <;> simp [hh] at hgrows
  | searchTest hp =>
    rcases searchTest_cases s with ⟨-, hh⟩ | ⟨-, hh⟩ | ⟨-, hh⟩ <;> rw [hh] at htrace hgrows ⊢
    · cases htrace
      exact ⟨.commission, s, by simp [hp, Phase.op], .noCall, rfl⟩
    · simp at hgrows
    · simp at hgrows
  | compareAwait hp =>
    rcases compareAwait_cases s with ⟨r, -, hh⟩ | ⟨e', -, hh⟩ <;> rw [hh] at htrace ⊢
    · simp at htrace
    · cases htrace
      exact ⟨.commission, _, by simp [hp, Phase.op], .read _, rfl⟩
  | passCheck => rcases passCheck_cases s with ⟨-, hh⟩ | ⟨-, hh⟩ <;> simp [hh] at hgrows

/-- A transport call writes no register, so the context of an error is that of the state before the call. -/
theorem State.Called.context_eq {s u : State} (h : s.Called u) (op : HostOp) : u.context op = errorContext op s := by
  rw [← context_eq_errorContext]
  cases h <;> rfl

/-- Settles O47: the error is an entry after at most one transport call, and neither writes a register besides `PHASE`, `STATUS`
and `ERRCTX`. -/
theorem errorEntryIsPrecise : Obligations.ErrorEntryIsPrecise := by
  unfold Obligations.ErrorEntryIsPrecise
  intro s t e rest op hr hop h htrace hgrows
  have hbusy : s.phase ≠ .idle := fun hp => by simp [hp, Phase.op] at hop
  have hstep := step_in_sequence (by simp [hr]) hbusy h
  rw [State.tick_of_no_reset hr] at hstep
  obtain ⟨op', u, hop', hcalled, rfl⟩ := hstep.eq_raise_of_failed htrace hgrows
  obtain rfl : op = op' := Option.some.inj (hop.symm.trans hop')
  refine ⟨rfl, rfl, congrArg some (hcalled.context_eq op), ?_⟩
  cases hcalled <;> exact ⟨rfl, rfl, rfl, rfl, rfl, rfl, rfl, rfl, rfl, rfl, rfl⟩

/-! ### No traps

No instruction's meaning answers a fault, and the step a busy block fetches is one of its own frames or updates, which are never
refused (R108, R250). -/

theorem whenIdle_ne_fault (s t : State) (f : Fault) : whenIdle s t ≠ .fault f := by
  by_cases hp : s.phase = .idle
  · simp [whenIdle_of_idle hp]
  · simp [whenIdle_of_busy hp]

theorem exec_ne_fault (i : Instr) (s : State) (f : Fault) : exec i s ≠ .fault f := by
  cases hf : framePair s.cfg.cmd i with
  | some p => simp [exec_frame hf]
  | none =>
    cases i <;> simp only [framePair, reduceCtorEq] at hf
    case decode n =>
      cases hn : decodeWidthOk n with
      | true => exact fun h => whenIdle_ne_fault _ _ f ((if_pos hn).symm.trans h)
      | false => simp [exec_decode_of_width hn]
    case reservedOp7 x => simp [reservedOperationIsRefused s x]
    all_goals exact whenIdle_ne_fault _ _ f

theorem step_ne_fault (s : State) (f : Fault) : step s ≠ .fault f := by
  cases hf : fetch s with
  | run i t => simpa [step_of_run hf] using exec_ne_fault i t f
  | internal t => simp [step_of_internal hf]
  | refuse r => simp [step, hf]

/-- A busy block fetches the frame of its phase, or an update of its own. -/
theorem fetchPhase_of_busy {s : State} (hp : s.phase ≠ .idle) :
    (∃ i a c, fetchPhase s = .run i s ∧ framePair s.cfg.cmd i = some (a, c)) ∨ ∃ t, fetchPhase s = .internal t := by
  by_cases hdone : s.phase = .scQ ∧ s.scanix = 64
  · exact .inr ((fetchPhase_quiet hp (.inr hdone)).imp fun _ => And.left)
  · cases hs : s.phase.sends with
    | true => exact .inl (fetchPhase_frame hs (not_and.1 hdone))
    | false => exact .inr ((fetchPhase_quiet hp (.inl hs)).imp fun _ => And.left)

/-- A step of a sequence answers a next state, a reset due or not. -/
theorem exists_step_of_busy {s : State} (hp : s.phase ≠ .idle) : ∃ t, step s = .next t := by
  by_cases hr : s.resetIn = some 0
  · exact ⟨_, step_of_reset_due hr⟩
  · have hfetch := fetch_of_reset_not_due hr
    rcases fetchPhase_of_busy (s := s.tick) hp with ⟨i, a, c, hf, hpair⟩ | ⟨t, hf⟩
    · exact ⟨_, (step_of_run (hfetch.trans hf)).trans (exec_frame hpair)⟩
    · exact ⟨t, step_of_internal (hfetch.trans hf)⟩

/-- Settles O50: no instruction faults, and a busy block fetches no request. -/
theorem noTrapsAndNoRefusalInSequence : Obligations.NoTrapsAndNoRefusalInSequence :=
  ⟨step_ne_fault, fun _ hp => exists_step_of_busy hp⟩

end Sys2Proof.Machine

namespace Sys2Proof.Machine

/-! ### Waiting and reset

An idle block without a request only lets its environment cut the host's search (R61, R280, R289); a due reset is `blockReset`,
whose environment is cut by the phase it found (R280, R281). -/

theorem step_of_waiting {s : State} (hp : s.phase = .idle) (hq : s.requests = []) (hr : s.resetIn = none) :
    step s = .next s.wait := by
  have hf : fetch s = .internal s.tick.wait := (fetch_of_idle hp (by simp [hr])).trans (fetchRequest_of_none hq)
  rw [step_of_internal hf, State.tick_of_no_reset hr]

/-- With no search and no search address under way on the bus there is nothing an interruption would cut. -/
theorem Env.cutHostSearch_of_quiet {e : Env} (h : ∀ b, e.bus = some b → b.search = .closed ∧ b.seq = .idle) :
    e.cutHostSearch = e := by
  rcases e.cutHostSearch_cases with ⟨hsame, -⟩ | ⟨-, b, hb, hsearch⟩
  · exact hsame
  · obtain ⟨hclosed, hidle⟩ := h b hb
    exact absurd (b.inSearch_iff.1 hsearch) (by simp [hclosed, hidle])

theorem Env.cut_of_idle {p : Phase} (e : Env) (hp : p = .idle) : e.cut p = e.cutHostSearch := if_pos hp

theorem Env.cut_of_busy {p : Phase} (e : Env) (hp : p ≠ .idle) : e.cut p = e.interrupt := if_neg hp

/-- Settles O3: the step is `State.wait`, which leaves the environment as it is or interrupts it. -/
theorem idleBlockWaits : Obligations.IdleBlockWaits := by
  unfold Obligations.IdleBlockWaits
  intro s hp hq hr
  rw [step_of_waiting hp hq hr, State.wait]
  refine ⟨fun hquiet => ?_, fun b hb hsearch => ?_⟩
  · rw [Env.cutHostSearch_of_quiet hquiet]
  · rw [Env.cutHostSearch_of_inSearch hb (b.inSearch_iff.2 hsearch)]

/-- Settles O53: the next state is `State.blockReset`, and its environment the one cut by the phase the reset has found. -/
theorem resetInputEndsOperation : Obligations.ResetInputEndsOperation := by
  unfold Obligations.ResetInputEndsOperation
  intro s hr
  exact ⟨s.blockReset, step_of_reset_due hr, s.blockReset_phase, s.blockReset_status, s.blockReset_errctx, s.blockReset_result,
    s.blockReset_trace, s.blockReset_cfg, s.blockReset_requests, s.blockReset_resetIn, s.env.cut_of_idle, s.env.cut_of_busy⟩

end Sys2Proof.Machine

namespace Sys2Proof.Machine

/-! ### The frame of the codec's operations

ENCODE, CLASSIFY and DECODE differ in the value they return alone: each that answers a next state is `State.finish` of an idle
block, which writes `RESULT`, `STATUS` and the observation and nothing else (40_codec.md). -/

/-- A host operation that answers a next state has found the block idle (R108). -/
theorem whenIdle_eq_next {s t u : State} (h : whenIdle s t = .next u) : s.phase = .idle ∧ t = u := by
  by_cases hp : s.phase = .idle
  · rw [whenIdle_of_idle hp] at h
    exact ⟨hp, Host.Outcome.next.inj h⟩
  · simp [whenIdle_of_busy hp] at h

/-- What ENCODE, CLASSIFY and DECODE can do, but for a refusal: end an idle block's operation with a value. -/
theorem exec_codec_next {i : Instr} {s t : State} (hi : (∃ a c, i = .encode a c) ∨ i = .classify ∨ ∃ n, i = .decode n)
    (h : exec i s = .next t) : s.phase = .idle ∧ ∃ r, s.finish r = t := by
  obtain ⟨a, c, rfl⟩ | rfl | ⟨n, rfl⟩ := hi
  · exact (whenIdle_eq_next h).imp_right (⟨_, ·⟩)
  · exact (whenIdle_eq_next h).imp_right (⟨_, ·⟩)
  · cases hn : decodeWidthOk n with
    | true => exact (whenIdle_eq_next ((if_pos hn).symm.trans h)).imp_right (⟨_, ·⟩)
    | false => simp [exec_decode_of_width hn] at h

/-- Settles O20: the next state is `State.finish` of the idle block, whose field lemmas are the frame. -/
theorem codecOperationsTouchNothingElse : Obligations.CodecOperationsTouchNothingElse := by
  unfold Obligations.CodecOperationsTouchNothingElse
  intro i s t hi h
  obtain ⟨hp, r, rfl⟩ := exec_codec_next hi h
  simp [hp]

end Sys2Proof.Machine
